-- ==== Sys2Proof/Word.lean ====
section
/-! DEFINITION. The word types of the core (spec 10_state.md R10, 30_encoding.md R66). -/

namespace Sys2Proof

/-- A byte of a frame, a slave address, a function code, a byte count (R10). -/
abbrev Byte := BitVec 8

/-- A RegisterAddress, a RegisterValue, a Quantity, a Crc (R10). -/
abbrev Word := BitVec 16

/-- The command word `K, A, B` of the channel `cmd`: `K` is bit 32, `A` bits 31:16, `B` bits 15:0 (R66). -/
abbrev CmdWord := BitVec 33

end Sys2Proof
end

