-- ==== Sys2Proof/Machine/Operands.lean ====
section
/-! DEFINITION. Operand forms: slices of a word, byte order, and the fields of a command word (00_scope.md 7.1,
20_memory.md R44 to R46, 30_encoding.md R66, R68, R69). -/

namespace Sys2Proof.Machine

/-- `hi8(v)` is `v[15:8]` (00_scope.md 7.1). -/
def hi8 (v : Word) : Byte := v.extractLsb' 8 8

/-- `lo8(v)` is `v[7:0]` (00_scope.md 7.1). -/
def lo8 (v : Word) : Byte := v.extractLsb' 0 8

/-- `zext_16(b)` (00_scope.md 7.1). -/
def zext16 (b : Byte) : Word := b.setWidth 16

/-- `be16(h, l)` is `(zext_16(h) << 8) | zext_16(l)` (00_scope.md 7.1, R44). -/
def be16 (h l : Byte) : Word := (zext16 h <<< 8) ||| zext16 l

/-- A 16-bit field on the wire: high byte first (R44, R68). -/
def fieldBytes (v : Word) : List Byte := [hi8 v, lo8 v]

/-- The CRC trailer of a frame: low byte first (R45, R61). -/
def trailer (c : Word) : List Byte := [lo8 c, hi8 c]

/-- The registers of a read response on the wire, in request order (R64). -/
def registerBytes : List Word → List Byte
  | [] => []
  | v :: vs => hi8 v :: lo8 v :: registerBytes vs

/-- The 16-bit fields a byte sequence holds, two bytes each, high byte first (R69). -/
def bytesRegisters : List Byte → List Word
  | h :: l :: bs => be16 h l :: bytesRegisters bs
  | _ => []

/-- `raw[i]`; it is used with an index below the length only (00_scope.md 7.2). -/
def byteAt (raw : List Byte) (i : Nat) : Byte := raw.getD i 0

/-- The CRC a received sequence of length `n` carries: `be16(raw[n-1], raw[n-2])`, the last byte high (R69, R127). -/
def receivedCrc (raw : List Byte) : Word := be16 (byteAt raw (raw.length - 1)) (byteAt raw (raw.length - 2))

/-- `raw[0 .. n-3]`: all bytes except the trailing two (R127). -/
def allButTrailer (raw : List Byte) : List Byte := raw.take (raw.length - 2)

/-- Register `i` of a read response is `be16(raw[3+2i], raw[4+2i])`, for `i` in 0 to `q-1` (R69, R131). -/
def responseRegisters (raw : List Byte) (q : Nat) : List Word :=
  (List.range q).map fun i => be16 (byteAt raw (3 + 2 * i)) (byteAt raw (4 + 2 * i))

/-- The bit `K` of a command word, bit 32 (R66). -/
def cmdK (w : CmdWord) : Bool := w.getLsbD 32

/-- The field `A` of a command word, bits 31:16 (R66). -/
def cmdA (w : CmdWord) : Word := w.extractLsb' 16 16

/-- The field `B` of a command word, bits 15:0 (R66). -/
def cmdB (w : CmdWord) : Word := w.extractLsb' 0 16

/-- The command word `K, A, B`: `K` in bit 32, `A` in bits 31:16, `B` in bits 15:0 (R66). -/
def packCmd (k : Bool) (a b : Word) : CmdWord :=
  ((BitVec.ofBool k).setWidth 33 <<< 32) ||| (a.setWidth 33 <<< 16) ||| b.setWidth 33

end Sys2Proof.Machine
end

