-- ==== Sys2Proof/Machine/Frames.lean ====
section
/-! DEFINITION. The wire frames as byte sequences: bodies, the sealed frame, the two requests and the read response
(30_encoding.md R60 to R65, 41_frame_encoder.md R112 to R114). -/

namespace Sys2Proof.Machine

/-- The function code of a read request (R62). -/
def fcRead : Byte := 0x03

/-- The function code of a write request (R63). -/
def fcWrite : Byte := 0x06

/-- The six bytes before the trailer of a request or of a write response: slave, function, two fields (R62, R63, R65). -/
def fieldsBody (slave function : Byte) (a b : Word) : List Byte := slave :: function :: (fieldBytes a ++ fieldBytes b)

/-- The bytes before the trailer of a read response (R64). -/
def registersBody (slave function byteCount : Byte) (vs : List Word) : List Byte :=
  slave :: function :: byteCount :: registerBytes vs

/-- `SEAL(p)`: the body and the CRC of the whole body, low byte first (R61, R112). -/
def sealFrame (body : List Byte) : List Byte := body ++ trailer (crc16 body)

/-- The body of the frame `ENC.RD` builds (R113). -/
def readRequestBody (slave : Byte) (start quantity : Word) : List Byte := fieldsBody slave fcRead start quantity

/-- The body of the frame `ENC.WR` builds (R114). -/
def writeRequestBody (slave : Byte) (address value : Word) : List Byte := fieldsBody slave fcWrite address value

/-- The result of `ENC.RD` (R113). -/
def encodeRead (slave : Byte) (start quantity : Word) : List Byte := sealFrame (readRequestBody slave start quantity)

/-- The result of `ENC.WR` (R114). -/
def encodeWrite (slave : Byte) (address value : Word) : List Byte := sealFrame (writeRequestBody slave address value)

/-- `CRC16(raw[0 .. n-3]) == be16(raw[n-1], raw[n-2])` (R127). -/
def crcOk (raw : List Byte) : Bool := crc16 (allButTrailer raw) == receivedCrc raw

end Sys2Proof.Machine
end

