-- ==== Sys2Proof/Config.lean ====
section
/-! DEFINITION. What one build fixes (00_scope.md section 5) and the free values: constants without a body, of which
no proof can know a value. -/

namespace Sys2Proof.Config

/-- `CFG.SLAVE` of `State.reset`. DESIGN CHOICE (log 2, unsafe): the spec leaves `SLAVE` a parameter without a value
(R7, N3); no statement rests on it, since every statement holds for each configuration a state can hold. -/
def resetSlave : Byte := 1

/-- `CFG.TURNAROUND_DELAY` of `State.reset` in milliseconds: "50 ms in the reference behaviour" (R7, R29). -/
def resetTurnaroundDelay : Word := 50

/-- `CFG.READ_TIMEOUT` of `State.reset` in milliseconds. DESIGN CHOICE (log 3, unsafe): OPEN in the spec (R7, D8);
nothing depends on it (R8). -/
def resetReadTimeout : Word := 1000

/-- FREE VALUE (log 6, safe). The answer the adapter gives to an `RX.READ` for which no arriving bytes are listed, by the
number of such reads made before: "every byte sequence of length 0 to `n` is a possible answer, and no rule constrains
which one is given" (R177, R183). It is cut to the `n` bytes asked for where it is used. -/
opaque adapterAnswer : Nat → List Byte

/-- FREE VALUE (log 11, safe). The byte-count field the conforming slave of R184 sends for a quantity above 127, whose
double does not fit a byte; the spec states none. -/
opaque wideByteCount : Word → Byte

/-- FREE VALUE (log 11, safe). What the conforming slave of R184 answers for a register past 0xFFFF, which its map `M`
does not have (a request may run past it, R48); the spec states none. -/
opaque registerBeyond : Nat → Word

end Sys2Proof.Config
end

