-- ==== Sys2Proof/Machine/Memory.lean ====
section
/-! DEFINITION. The slave's holding registers (20_memory.md R40, R41, R44) as a list of cells in one canonical form, and
the reads of the byte buffers `TXBUF` and `RXBUF`. Register `r` is held as two bytes, its high byte at `2*r` and its low
byte at `2*r + 1`, in the order in which they go on the wire (R44; log 9). -/

namespace Sys2Proof.Machine

/-- Cells with strictly rising addresses, none holding the value of an unlisted one. -/
abbrev Memory := List Host.Cell

/-- What an unlisted address reads as. DESIGN CHOICE (log 10, unsafe): the spec says nothing of a device's registers
before the first write (R29). -/
def unlistedByte : Byte := 0

/-- The byte at an address. -/
def readByte : Memory → Nat → Byte
  | [], _ => unlistedByte
  | (k, v) :: m, a => if k = a then v else readByte m a

/-- A cell in front of a canonical memory, left out when it holds what an unlisted address reads as. -/
def consCell (a : Nat) (v : Byte) (m : Memory) : Memory := if v = unlistedByte then m else (a, v) :: m

/-- Store one byte, keeping the canonical form. -/
def writeByte : Memory → Nat → Byte → Memory
  | [], a, v => consCell a v []
  | (k, w) :: m, a, v =>
      if a < k then consCell a v ((k, w) :: m)
      else if a = k then consCell a v m
      else (k, w) :: writeByte m a v

/-- The canonical form, from a lowest address on. -/
def wfFrom : Nat → Memory → Bool
  | _, [] => true
  | lo, (k, v) :: m => decide (lo ≤ k) && decide (v ≠ unlistedByte) && wfFrom (k + 1) m

/-- The canonical form. -/
def Memory.wf (m : Memory) : Bool := wfFrom 0 m

/-- The 16-bit register `r` (R44, R46). -/
def readRegister (m : Memory) (r : Nat) : Word := be16 (readByte m (2 * r)) (readByte m (2 * r + 1))

/-- Store the 16-bit register `r` (R44, R46). -/
def writeRegister (m : Memory) (r : Nat) (v : Word) : Memory :=
  writeByte (writeByte m (2 * r) (hi8 v)) (2 * r + 1) (lo8 v)

end Sys2Proof.Machine
end

