-- ==== Sys2Proof/Syntax.lean ====
section
/-! DEFINITION. The operations of the block: one constructor of `Instr` for each row of the opcode table
(30_encoding.md R70, 00_scope.md R9), and the operand types they carry. -/

namespace Sys2Proof

/-- OperatingMode, a closed enumerant (45_host_reconciler.md R191). -/
inductive OperatingMode where
  | stop
  | run
  | reverse
  | forward
deriving DecidableEq, Repr

/-- A command of the host to the Reconciler (R194): a mode, and a frequency that may lie outside 0 to 65535, so an
unbounded integer. -/
structure HostCommand where
  mode : OperatingMode
  frequency : Int
deriving DecidableEq, Repr

/-- The operations of the block. -/
inductive Instr where
  /-- `REQ.FC03` (R62): the read-holding-registers request. `crc` is the 16-bit value of its trailer. -/
  | reqFc03 (slave : Byte) (start quantity crc : Word)
  /-- `REQ.FC06` (R63): the write-single-register request. -/
  | reqFc06 (slave : Byte) (address value crc : Word)
  /-- `RSP.FC06` (R65): the response `DEC.WR` accepts. -/
  | rspFc06 (slave function : Byte) (address value crc : Word)
  /-- `RSP.FC03` (R64): the response `DEC.RD` accepts. -/
  | rspFc03 (slave function byteCount : Byte) (registers : List Word) (crc : Word)
  /-- `XFER.RD start, quantity` (R154): the load. -/
  | xferRd (start quantity : Word)
  /-- `XFER.WR address, value` (R155): the store. -/
  | xferWr (address value : Word)
  /-- `CRC16 <bytes>` (R96). -/
  | crc16 (bytes : List Byte)
  /-- `CRC.INIT` (R93). -/
  | crcInit
  /-- `CRC.UPD b` (R94). -/
  | crcUpd (b : Byte)
  /-- `CRC.GET` (R95). -/
  | crcGet
  /-- `ENC.RD slave, start, quantity` (R113). -/
  | encRd (slave : Byte) (start quantity : Word)
  /-- `ENC.WR slave, address, value` (R114). -/
  | encWr (slave : Byte) (address value : Word)
  /-- `DEC.RD <raw>, quantity` (R128). -/
  | decRd (raw : List Byte) (quantity : Word)
  /-- `DEC.WR <raw>` (R135). -/
  | decWr (raw : List Byte)
  /-- `TX.WRITE <bytes>` (R175). -/
  | txWrite (bytes : List Byte)
  /-- `WAIT.TURN` (R176). -/
  | waitTurn
  /-- `RX.READ n` (R177). -/
  | rxRead (n : Nat)
  /-- The sequencer step `issue`, with the command word the host offers (R150). -/
  | issue (cmd : CmdWord)
  /-- The sequencer step `turnaround` (R151). -/
  | turnaround
  /-- The sequencer step `collect` (R152). -/
  | collect
  /-- The sequencer step `retire` (R153). -/
  | retire
  /-- `RECONCILE none` or `RECONCILE mode, frequency` (R196). -/
  | reconcile (command : Option HostCommand)
deriving DecidableEq, Repr

/-- One move that is still to come, in the form in which it reaches the machine. The first three carry the encodings of
the spec; the fourth an operation that "has no bit encoding" (R70); the last three stand for no operation of the table
(log 1). -/
inductive Offer where
  /-- A command word standing on the channel `cmd` (R66, R147). -/
  | cmdWord (w : CmdWord)
  /-- Bytes on their way to the slave (R60, section 2 of 30_encoding.md). -/
  | request (bytes : List Byte)
  /-- Bytes on their way to the adapter (R60, section 3 of 30_encoding.md). -/
  | response (bytes : List Byte)
  /-- An operation invoked by its name (R70, R75). -/
  | op (i : Instr)
  /-- Reset applied from outside (R250, R252). -/
  | reset
  /-- The Reconciler entered with a command or without one: its transactions are made one after the other, not as one
  atomic operation (R58, R195, R199; log 23). -/
  | reconcile (command : Option HostCommand)
  /-- No move from outside: the machine makes its own next step here. -/
  | proceed
deriving DecidableEq, Repr

end Sys2Proof
end

