-- ==== Sys2Proof/Machine/State.lean ====
section
/-! DEFINITION. The state of the core (10_state.md), of its channels and of the environment behind them, the reasons to
stop, and the state after reset (R29). -/

namespace Sys2Proof.Machine

/-- The sequencing states (R14, R146). -/
inductive Seq where
  | idle
  | sent
  | awaitingResponse
  | decoded
  | failed
deriving DecidableEq, Repr

/-- The failure kinds of a transaction, a closed taxonomy (R12, R215). -/
inductive FailureKind where
  | timeout
  | crcMismatch
  | unexpectedByteCount
deriving DecidableEq, Repr

/-- A TransactionResult (R12); a successful write carries no payload (C5). -/
inductive TransactionResult where
  | readOk (values : List Word)
  | writeOk
  | failed (kind : FailureKind)
deriving DecidableEq, Repr

/-- The two kinds of request, `REQ.K` 0 and 1 (R11, R13). -/
inductive RequestKind where
  | readHoldingRegisters
  | writeSingleRegister
deriving DecidableEq, Repr

/-- The request latch `REQ` (R13). -/
structure Request where
  k : RequestKind
  a : Word
  b : Word
deriving DecidableEq, Repr

/-- The serial transport adapter behind `CFG.ADAPTER`: there is one (R21). -/
inductive AdapterHandle where
  | theAdapter
deriving DecidableEq, Repr

/-- The configuration, set before the first transaction and never mutated (R7, R21). The durations are in milliseconds,
with the widths of the register view (R24). -/
structure Cfg where
  slave : Byte
  turnaroundDelay : Word
  readTimeout : Word
  adapter : AdapterHandle
deriving DecidableEq, Repr

/-- What stands behind the adapter (log 8): nothing is assumed of it (R183), or it is one of the two slaves that the spec
describes, the conforming one (R184) or the silent one (R185). -/
inductive Device where
  | unconstrained
  | conforming
  | silent
deriving DecidableEq, Repr

/-- What a unit function or a primitive returned to the one who invoked it (log 13). -/
inductive UnitResult where
  /-- `CRC16`, `CRC.GET` (R95, R96). -/
  | crc (value : Word)
  /-- `ENC.RD`, `ENC.WR` (R113, R114). -/
  | frame (bytes : List Byte)
  /-- `DEC.RD`, `DEC.WR` (R128, R135). -/
  | decoded (result : TransactionResult)
  /-- `RX.READ` (R177). -/
  | bytes (raw : List Byte)
deriving DecidableEq, Repr

/-- A decoded mode register: a named mode, or the sentinel distinct from any (R192). -/
inductive ModeReading where
  | named (mode : OperatingMode)
  | unknown
deriving DecidableEq, Repr

/-- A RegisterSnapshot (R193). -/
structure Snapshot where
  mode : ModeReading
  frequency : Word
deriving DecidableEq, Repr

/-- The state of the machine. -/
structure State where
  /-- `CFG.*` (R21). -/
  cfg : Cfg
  /-- `SEQ` (R14). -/
  seq : Seq
  /-- `REQ` (R13). -/
  req : Request
  /-- `ACC` (R15). -/
  acc : Word
  /-- `TXBUF` (R16): byte `i` at index `i`; empty while no byte holds a value (R29; log 5). -/
  txbuf : List Byte
  /-- `EXPLEN` (R17). -/
  explen : Nat
  /-- `RXBUF` (R18): "a byte sequence of length `RXLEN` with no capacity bound". -/
  rxbuf : List Byte
  /-- `RXLEN` (R18). -/
  rxlen : Nat
  /-- `RESULT` (R19). -/
  result : Option TransactionResult
  /-- The moves still to come, the first one next; a command word at its head is the one standing on `cmd` (R147; log 1). -/
  prog : List Offer
  /-- The results delivered on `res`, oldest first (R147, R153; log 30). -/
  res : List TransactionResult
  /-- The byte sequences handed to the adapter on `tx`, oldest first (R147, R175; log 30). -/
  tx : List (List Byte)
  /-- The bytes the adapter holds for the next read, its receive queue, oldest first (R26, R176, R258; log 6). -/
  rx : List Byte
  /-- The bytes that will arrive while a read waits, one list a read, the next read's first (R177, R183; log 6). -/
  arrivals : List (List Byte)
  /-- What stands behind the adapter (R183 to R185; log 8). -/
  device : Device
  /-- The holding registers `M` of the conforming slave (R184; log 9). -/
  dev : Memory
  /-- How many reads a free value has answered: the model's own counter (log 6). -/
  freeReads : Nat
  /-- The value last returned by a unit function or primitive: the model's own (log 13). -/
  out : Option UnitResult
  /-- The commands that the Reconciler has still to issue, none when it is not at work: the model's own (R58, R199; log
  23). -/
  host : Option (List CmdWord)
  /-- The snapshot the last `RECONCILE` returned (R193, R206; log 23). -/
  snapshot : Option Snapshot
deriving DecidableEq, Repr

/-- Why the machine stops with a fault. The spec defines no fault (R230). -/
inductive Fault where
  /-- A sequencer step asked for in a state that does not enable it: "No other transition exists" (R146). Raised by
  `turnaround`, `collect`, `retire`; a stuck state. Safe: the hardware makes no such move (log 15). -/
  | stepNotEnabled
deriving DecidableEq, Repr

/-- Why the model gives no meaning. -/
inductive Refusal where
  /-- An instruction without a meaning yet. No arm of this model answers so. Safe. -/
  | notModelled (mnemonic : String)
  /-- `CFG.SLAVE` outside 1 to 247: "the model refuses such a configuration instead of giving it a meaning" (R22). Raised by
  the operations that read `CFG.SLAVE`: `issue`, `XFER.RD`, `XFER.WR`, `RECONCILE`. Safe (log 18). -/
  | illegalConfiguration
  /-- `DEC.RD` on fewer than `5 + 2*quantity` bytes: "outside the contract and the model refuses it" (R126). Raised by
  `DEC.RD`, and by `collect` in states no run reaches (log 19). Safe. -/
  | decoderPrecondition
  /-- A read of a buffer index that holds no value (R30, R230). Raised by the buffer reads of the register view. Safe (log 5). -/
  | bufferNoValue
  /-- A primitive of the adapter offered by a party other than the sequencer: "The model has no move by which any other
  party uses the adapter's core-side interface" (R181). Raised by the step that meets such an offer. Safe (log 17). -/
  | adapterExclusive
deriving DecidableEq, Repr

/-- The outcome of an operation. -/
abbrev Result := Host.Outcome State Fault Refusal

/-- The machine right after reset (R29, R250). The values the spec does not give: `CFG.SLAVE` (log 2), `CFG.READ_TIMEOUT`
(log 3), `REQ` (log 4), the environment (logs 6, 8, 10), the model's own fields (logs 13, 23, 30). -/
def State.reset : State where
  cfg :=
    { slave := Config.resetSlave
      turnaroundDelay := Config.resetTurnaroundDelay
      readTimeout := Config.resetReadTimeout
      adapter := .theAdapter }
  seq := .idle
  req := { k := .readHoldingRegisters, a := 0, b := 0 }
  acc := 0xFFFF
  txbuf := []
  explen := 0
  rxbuf := []
  rxlen := 0
  result := none
  prog := []
  res := []
  tx := []
  rx := []
  arrivals := []
  device := .unconstrained
  dev := []
  freeReads := 0
  out := none
  host := none
  snapshot := none

end Sys2Proof.Machine
end

