-- ==== Sys2Proof/Machine/Flags.lean ====
section
/-! DEFINITION. The core has no condition codes (10_state.md R20). What takes their place: the comparison outcomes that
decoding consumes at once, the success of a result, and the codes of the fields `SEQ` and `KIND` of `STATUS` (R24). -/

namespace Sys2Proof.Machine

/-- The byte-count check: the integer in `raw[2]` against the integer `2*q`, nothing reduced (R130, D9). -/
def byteCountOk (raw : List Byte) (q : Word) : Bool := (byteAt raw 2).toNat == 2 * q.toNat

/-- The result is `ReadOk` or `WriteOk` (R152). -/
def TransactionResult.isOk : TransactionResult → Bool
  | .readOk _ => true
  | .writeOk => true
  | .failed _ => false

/-- The bit `REQ.K` (R13). -/
def RequestKind.bit : RequestKind → Bool
  | .readHoldingRegisters => false
  | .writeSingleRegister => true

/-- The request kind a bit `K` selects (R66). -/
def requestKind (k : Bool) : RequestKind := if k then .writeSingleRegister else .readHoldingRegisters

/-- The numeric code of `SEQ` (R24, D11). -/
def Seq.code : Seq → BitVec 3
  | .idle => 0
  | .sent => 1
  | .awaitingResponse => 2
  | .decoded => 3
  | .failed => 4

/-- The numeric code of a failure kind (R24, R215, D11). -/
def FailureKind.code : FailureKind → BitVec 3
  | .timeout => 1
  | .crcMismatch => 2
  | .unexpectedByteCount => 3

/-- The `KIND` code sent with a result: 0 for success (R67). -/
def TransactionResult.kindCode : TransactionResult → BitVec 3
  | .readOk _ => 0
  | .writeOk => 0
  | .failed k => k.code

/-- A result on `res` in a bit-level build: the `KIND` code, then for `ReadOk` the values in request order (R67). -/
def TransactionResult.wire : TransactionResult → BitVec 3 × List Word
  | .readOk vs => (0, vs)
  | .writeOk => (0, [])
  | .failed k => (k.code, [])

/-- The field `KIND` of `STATUS`: "nonzero exactly when `SEQ` is `Failed`" (R24; log 21). -/
def kindField (s : State) : BitVec 3 :=
  if s.seq = .failed then (s.result.map TransactionResult.kindCode).getD 0 else 0

/-- `STATUS`: `SEQ` in bits 2:0, bit 3 reads 0, `KIND` in bits 6:4, bit 7 reads 0 (R24). -/
def statusByte (s : State) : Byte := ((kindField s).setWidth 8 <<< 4) ||| s.seq.code.setWidth 8

/-- The legal values of `CFG.SLAVE`, 1 to 247 (R10, R21, R22). The slave address alone is tested: a `CFG.READ_TIMEOUT` of
0, which is not "positive" (R7, R21) and of which no rule says what becomes of it, runs like any other value. DESIGN
CHOICE (log 31). -/
def Cfg.legal (c : Cfg) : Bool := decide (1 ≤ c.slave.toNat) && decide (c.slave.toNat ≤ 247)

end Sys2Proof.Machine
end

