-- ==== Sys2Proof/Machine/Ops.lean ====
section
/-! DEFINITION. The shared operations over the state: named updates, the delivery of a failure and the return from one,
the adapter's side of `TX.WRITE` and `RX.READ`, the slaves the spec describes, reads of the buffers, and reset. -/

namespace Sys2Proof.Machine

/-- `ACC <- a` (R15). -/
def State.withAcc (s : State) (a : Word) : State := { s with acc := a }

/-- "result <- v" of a unit function or primitive (log 13). -/
def State.withOut (s : State) (v : UnitResult) : State := { s with out := some v }

/-- `SEQ <- q` (R14). -/
def State.withSeq (s : State) (q : Seq) : State := { s with seq := q }

/-- The offer that was taken for an operation which must wait stands again where it stood: "neither taken nor dropped"
(R149; log 16). -/
def State.hold (s : State) (o : Offer) : State := { s with prog := o :: s.prog }

/-- `raise <Kind>`, the delivery of a failure: `RESULT <- Failed(kind)`, `SEQ <- Failed`, and nothing saved (00_scope.md
7.3, R224). -/
def State.raise (s : State) (k : FailureKind) : State := { s with result := some (.failed k), seq := .failed }

/-- The end of a transaction with a result: a failure is raised, a success assigns `RESULT` and `SEQ <- Decoded` (R152). -/
def State.finish (s : State) : TransactionResult → State
  | .readOk vs => { s with result := some (.readOk vs), seq := .decoded }
  | .writeOk => { s with result := some .writeOk, seq := .decoded }
  | .failed k => s.raise k

/-- The effect of `retire`, the return from a failure and from a success alike: `RESULT` is delivered on `res` and
`SEQ <- Idle`; everything else keeps its value (R153, R227). -/
def State.retired (s : State) : State := { s with res := s.res ++ s.result.toList, seq := .idle }

/-- `MemRead(buf + i, n)`: refused at or beyond the buffer's valid length (00_scope.md 7.3, R30). -/
def memRead (buf : List Byte) (i n : Nat) : Except Refusal (List Byte) :=
  if i + n ≤ buf.length then .ok ((buf.drop i).take n) else .error .bufferNoValue

/-- The byte-count field of the conforming slave: `2*q`, where it fits a byte (R184; log 11). -/
def slaveByteCount (q : Word) : Byte :=
  if q.toNat ≤ 127 then BitVec.ofNat 8 (2 * q.toNat) else Config.wideByteCount q

/-- The register `M[r]` of the conforming slave (R184; log 11). -/
def slaveRegister (m : Memory) (r : Nat) : Word := if r ≤ 0xFFFF then readRegister m r else Config.registerBeyond r

/-- `M[s], ..., M[s+q-1]` (R184). -/
def slaveRegisters (m : Memory) (start quantity : Word) : List Word :=
  (List.range quantity.toNat).map fun i => slaveRegister m (start.toNat + i)

/-- The answer of the conforming slave to a read request (R184). -/
def slaveReadAnswer (slave : Byte) (m : Memory) (start quantity : Word) : List Byte :=
  sealFrame (registersBody slave fcRead (slaveByteCount quantity) (slaveRegisters m start quantity))

/-- The conforming slave receives a valid request to it and answers; "The whole answer is returned to the next
`RX.READ`" (R184). -/
def conformingRequest (function : Byte) (a b : Word) (bytes : List Byte) (s : State) : State :=
  if function = fcWrite then { s with dev := writeRegister s.dev a.toNat b, rx := bytes ++ s.rx }
  else if function = fcRead then { s with rx := slaveReadAnswer s.cfg.slave s.dev a b ++ s.rx }
  else s

/-- The conforming slave, of address `SLAVE`, receives bytes: "otherwise: answer nothing" (R184). -/
def conformingReceive (bytes : List Byte) (s : State) : State :=
  match bytes with
  | [slave, function, ah, al, bh, bl, _, _] =>
      if slave = s.cfg.slave ∧ crcOk bytes then conformingRequest function (be16 ah al) (be16 bh bl) bytes s else s
  | _ => s

/-- Bytes reach what stands behind the adapter. Of an unconstrained device nothing is known but its answers, which are free
values; the silent one never responds (R183 to R185; log 8). -/
def deviceReceive (bytes : List Byte) (s : State) : State :=
  match s.device with
  | .unconstrained => s
  | .conforming => conformingReceive bytes s
  | .silent => s

/-- `emit tx(bytes)`: the adapter takes the bytes, which cannot fail, and puts them on the line (R175).
Whether it discards old input on a write is not stated (R258, N8): it keeps all of it. DESIGN CHOICE (log 32). -/
def emitTx (bytes : List Byte) (s : State) : State := deviceReceive bytes { s with tx := s.tx ++ [bytes] }

/-- Bytes arrive at the adapter, which holds them for a later read (R176, R183, R258; log 12). The capacity of its queue is
not stated (N24): it holds all of them. DESIGN CHOICE (log 34). -/
def arrive (bytes : List Byte) (s : State) : State := { s with rx := s.rx ++ bytes }

/-- What arrives while the next read waits: nothing when the slave is silent (R185), else the next list; with none left,
nothing from a conforming slave, whose answer is with the adapter already (R184), and a free value from an unconstrained
one (R177, R183; log 6). -/
def arriving (s : State) : List Byte :=
  match s.device, s.arrivals with
  | .silent, _ => []
  | .unconstrained, burst :: _ => burst
  | .conforming, burst :: _ => burst
  | .unconstrained, [] => Config.adapterAnswer s.freeReads
  | .conforming, [] => []

/-- The bytes available to the next read: those the adapter holds, whenever they arrived before it (R176), then those that
arrive while it waits. With the silent slave "Every `RX.READ` is answered by the empty sequence" (R185). -/
def available (s : State) : List Byte :=
  match s.device with
  | .unconstrained => s.rx ++ arriving s
  | .conforming => s.rx ++ arriving s
  | .silent => []

/-- The answer to `ask(n)`: "it is never longer than `n`" (R177). -/
def answer (n : Nat) (s : State) : List Byte := (available s).take n

/-- The adapter after it answered `ask(n)`: what the read did not take stays in its queue (R158, R258(b); log 7). -/
def afterAnswer (n : Nat) (s : State) : State :=
  match s.device with
  | .silent => s
  | .conforming => { s with rx := (available s).drop n, arrivals := s.arrivals.tail }
  | .unconstrained =>
      { s with
        rx := (available s).drop n
        arrivals := s.arrivals.tail
        freeReads := if s.arrivals = [] then s.freeReads + 1 else s.freeReads }

/-- Reset applied to a machine in any state: the core's state takes its reset values, the configuration, the host and
the environment stay as they are, and a transaction in flight is abandoned without a result (R29, R252), and with it the
`RECONCILE` that waits for it (log 22). -/
def hardReset (s : State) : State :=
  { s with
    seq := State.reset.seq
    req := State.reset.req
    acc := State.reset.acc
    txbuf := State.reset.txbuf
    explen := State.reset.explen
    rxbuf := State.reset.rxbuf
    rxlen := State.reset.rxlen
    result := State.reset.result
    host := State.reset.host }

end Sys2Proof.Machine
end

