-- ==== Sys2Proof/Machine/CrcUnit.lean ====
section
/-! DEFINITION. The CRC generator's operations (40_crc.md R93 to R96): no flag, no failure. -/

namespace Sys2Proof.Machine

/-- `CRC16 <bytes>`: the fold from the initial value; the result is returned and left in `ACC` (R96, R15). -/
def execCrc16 (bytes : List Byte) (s : State) : Result :=
  .next ((s.withAcc (crc16 bytes)).withOut (.crc (crc16 bytes)))

/-- `CRC.INIT`: `ACC <- 0xFFFF` (R93). -/
def execCrcInit (s : State) : Result := .next (s.withAcc crcInitial)

/-- `CRC.UPD b` (R94). -/
def execCrcUpd (b : Byte) (s : State) : Result := .next (s.withAcc (crcUpd s.acc b))

/-- `CRC.GET`: the result is `ACC`, which is unchanged (R95). -/
def execCrcGet (s : State) : Result := .next (s.withOut (.crc s.acc))

end Sys2Proof.Machine
end

