-- ==== Sys2Proof/WellFormed.lean ====
section
/-! DEFINITION. Which operations are well formed: a frame's trailer is the CRC of its body (R61: "The c field is not
free"), a read response counts its own bytes (R64), and `DEC.RD` has its precondition (R126). Nothing else is reserved or
illegal (R72 to R74). The machine runs ill-formed frames too, since the line may damage them (R183; log 28). -/

namespace Sys2Proof

open Machine in
/-- The checks, by constructor. -/
def Instr.wellFormed : Instr → Bool
  | .reqFc03 slave start quantity crc => crc == Machine.crc16 (fieldsBody slave fcRead start quantity)
  | .reqFc06 slave address value crc => crc == Machine.crc16 (fieldsBody slave fcWrite address value)
  | .rspFc06 slave function address value crc => crc == Machine.crc16 (fieldsBody slave function address value)
  | .rspFc03 slave function byteCount registers crc =>
      byteCount.toNat == 2 * registers.length && crc == Machine.crc16 (registersBody slave function byteCount registers)
  | .xferRd _ _ => true
  | .xferWr _ _ => true
  | .crc16 _ => true
  | .crcInit => true
  | .crcUpd _ => true
  | .crcGet => true
  | .encRd _ _ _ => true
  | .encWr _ _ _ => true
  | .decRd raw quantity => decide (5 + 2 * quantity.toNat ≤ raw.length)
  | .decWr _ => true
  | .txWrite _ => true
  | .waitTurn => true
  | .rxRead _ => true
  | .issue _ => true
  | .turnaround => true
  | .collect => true
  | .retire => true
  | .reconcile _ => true

end Sys2Proof
end

