-- ==== Sys2Proof/Decode.lean ====
section
/-! DEFINITION. The decoder, total on every offer and rejecting by name, and after it the encoder, both from the encoding
tables of 30_encoding.md (R62 to R66). -/

namespace Sys2Proof

open Machine

/-- Why an offer stands for no operation of the table. -/
inductive DecodeError where
  /-- No frame format of that direction has this length (R62 to R65). -/
  | badLength (n : Nat)
  /-- A request frame with a function code other than 0x03 and 0x06 (R2, R72). -/
  | unknownFunction (function : Byte)
  /-- A move that stands for no operation of the table: reset (R250), the entry of the Reconciler, the machine's own next
  step. -/
  | noOperation
deriving DecidableEq, Repr

/-- What the decoder reads: an operation, or a rejection by name. -/
inductive Decoded where
  | instr (i : Instr)
  | rejected (e : DecodeError)
deriving DecidableEq, Repr

/-- A command word: the bit `K` selects the operation; every word is legal (R66, R70, R74). -/
def decodeCmd (w : CmdWord) : Instr := if cmdK w then .xferWr (cmdA w) (cmdB w) else .xferRd (cmdA w) (cmdB w)

/-- A request frame: eight bytes, of which byte 1 selects the operation (R62, R63, R70, R71). -/
def decodeRequest : List Byte → Decoded
  | [slave, function, ah, al, bh, bl, cl, ch] =>
      if function = fcRead then .instr (.reqFc03 slave (be16 ah al) (be16 bh bl) (be16 ch cl))
      else if function = fcWrite then .instr (.reqFc06 slave (be16 ah al) (be16 bh bl) (be16 ch cl))
      else .rejected (.unknownFunction function)
  | bs => .rejected (.badLength bs.length)

/-- A response frame, told apart by its length alone: 8 bytes, or `5 + 2*q` (R64, R65, R70). -/
def decodeResponse : List Byte → Decoded
  | [slave, function, ah, al, bh, bl, cl, ch] =>
      .instr (.rspFc06 slave function (be16 ah al) (be16 bh bl) (be16 ch cl))
  | slave :: function :: byteCount :: rest =>
      if rest.length % 2 = 0 ∧ 2 ≤ rest.length then
        .instr (.rspFc03 slave function byteCount (bytesRegisters (allButTrailer rest)) (receivedCrc rest))
      else .rejected (.badLength (rest.length + 3))
  | bs => .rejected (.badLength bs.length)

/-- The decoder. -/
def decode : Offer → Decoded
  | .cmdWord w => .instr (decodeCmd w)
  | .request bs => decodeRequest bs
  | .response bs => decodeResponse bs
  | .op i => .instr i
  | .reset => .rejected .noOperation
  | .reconcile _ => .rejected .noOperation
  | .proceed => .rejected .noOperation

/-- The encoder: the frame or command word of an operation that has one; the unit functions, primitives, steps and the
macro "have no bit encoding" (R70). -/
def encode : Instr → Option Offer
  | .reqFc03 slave start quantity crc => some (.request (fieldsBody slave fcRead start quantity ++ trailer crc))
  | .reqFc06 slave address value crc => some (.request (fieldsBody slave fcWrite address value ++ trailer crc))
  | .rspFc06 slave function address value crc =>
      some (.response (fieldsBody slave function address value ++ trailer crc))
  | .rspFc03 slave function byteCount registers crc =>
      some (.response (registersBody slave function byteCount registers ++ trailer crc))
  | .xferRd start quantity => some (.cmdWord (packCmd false start quantity))
  | .xferWr address value => some (.cmdWord (packCmd true address value))
  | .crc16 _ => none
  | .crcInit => none
  | .crcUpd _ => none
  | .crcGet => none
  | .encRd _ _ _ => none
  | .encWr _ _ _ => none
  | .decRd _ _ => none
  | .decWr _ => none
  | .txWrite _ => none
  | .waitTurn => none
  | .rxRead _ => none
  | .issue _ => none
  | .turnaround => none
  | .collect => none
  | .retire => none
  | .reconcile _ => none

/-- The `n` bytes of a number, most significant first: bit 63 of a frame's pattern is bit 7 of byte 0 (R62). -/
def bytesOfNumber : Nat → Nat → List Byte
  | 0, _ => []
  | n + 1, w => BitVec.ofNat 8 (w / 256 ^ n) :: bytesOfNumber n w

/-- The offer a table word stands for (log 25): up to 40 bits with a value below 2^33 a command word (its 33 bits in whole
bytes are 40), otherwise a frame laid out first byte first; eight bytes with a request's function code are a request. -/
def offerOfTableWord (nbits w : Nat) : Offer :=
  if nbits ≤ 40 ∧ w < 2 ^ 33 then .cmdWord (BitVec.ofNat 33 w)
  else
    let bs := bytesOfNumber ((nbits + 7) / 8) w
    if bs.length = 8 ∧ (byteAt bs 1 = fcRead ∨ byteAt bs 1 = fcWrite) then .request bs else .response bs

/-- The operation the decoder reads from a table word. -/
def decodeTableWord (nbits w : Nat) : Option Instr :=
  match decode (offerOfTableWord nbits w) with
  | .instr i => some i
  | .rejected _ => none

end Sys2Proof
end

