-- ==== Sys2Proof/Machine/Adapter.lean ====
section
/-! DEFINITION. The adapter's three primitives (44_serial_adapter.md R175 to R177) and the four frame formats as events of
the link: a request frame reaches the slave, a response frame reaches the adapter (log 12). -/

namespace Sys2Proof.Machine

/-- The bytes of a frame with its trailer as they pass on the wire, whatever its CRC (R60). -/
def frameBytes (body : List Byte) (crc : Word) : List Byte := body ++ trailer crc

/-- `REQ.FC03` reaches the slave: "on receiving REQ.FC03" (R184, R70). -/
def execReqFc03 (slave : Byte) (start quantity crc : Word) (s : State) : Result :=
  .next (deviceReceive (frameBytes (fieldsBody slave fcRead start quantity) crc) s)

/-- `REQ.FC06` reaches the slave: "on receiving REQ.FC06" (R184, R70). -/
def execReqFc06 (slave : Byte) (address value crc : Word) (s : State) : Result :=
  .next (deviceReceive (frameBytes (fieldsBody slave fcWrite address value) crc) s)

/-- `RSP.FC06` reaches the adapter, which holds it for a read (R176, R183). -/
def execRspFc06 (slave function : Byte) (address value crc : Word) (s : State) : Result :=
  .next (arrive (frameBytes (fieldsBody slave function address value) crc) s)

/-- `RSP.FC03` reaches the adapter, which holds it for a read (R176, R183). -/
def execRspFc03 (slave function byteCount : Byte) (registers : List Word) (crc : Word) (s : State) : Result :=
  .next (arrive (frameBytes (registersBody slave function byteCount registers) crc) s)

/-- `TX.WRITE <bytes>`: fire-and-forget; it cannot fail and returns nothing (R175). -/
def execTxWrite (bytes : List Byte) (s : State) : Result := .next (emitTx bytes s)

/-- The effect of `WAIT.TURN` without time: nothing but the end of `Sent` (R176, R151; log 27). -/
def State.turnedAround (s : State) : State := if s.seq = .sent then s.withSeq .awaitingResponse else s

/-- `WAIT.TURN` (R176). -/
def execWaitTurn (s : State) : Result := .next s.turnedAround

/-- `RX.READ n`: the answer is returned, and what it holds is no longer with the adapter (R177). -/
def execRxRead (n : Nat) (s : State) : Result := .next ((afterAnswer n s).withOut (.bytes (answer n s)))

end Sys2Proof.Machine
end

