-- ==== Sys2Proof/Machine/Decoder.lean ====
section
/-! DEFINITION. The frame decoder (42_frame_decoder.md R125 to R141): the checks in the order CRC, byte count (R132);
`ACC` is its scratch and is left at the recomputed CRC, when one is computed (R127; log 14). -/

namespace Sys2Proof.Machine

/-- The precondition of `DEC.RD`: at least `5 + 2*quantity` bytes (R126). -/
def decodeReadPrecondition (raw : List Byte) (q : Word) : Bool := decide (5 + 2 * q.toNat ≤ raw.length)

/-- The result of `DEC.RD` within its precondition (R128 to R134). -/
def decodeRead (raw : List Byte) (q : Word) : TransactionResult :=
  if crcOk raw then
    if byteCountOk raw q then .readOk (responseRegisters raw q.toNat) else .failed .unexpectedByteCount
  else .failed .crcMismatch

/-- The result of `DEC.WR` (R135 to R137): the echoed fields are not compared with anything. -/
def decodeWrite (raw : List Byte) : TransactionResult :=
  if raw.length = 8 then (if crcOk raw then .writeOk else .failed .crcMismatch) else .failed .timeout

/-- `ACC` after a decoder has recomputed the CRC of a received sequence (R127). -/
def recomputedCrc (raw : List Byte) : Word := crc16 (allButTrailer raw)

/-- `ACC` after `DEC.WR`: a sequence of another length than 8 is rejected before any CRC is computed (R135). -/
def accAfterDecodeWrite (raw : List Byte) (acc : Word) : Word := if raw.length = 8 then recomputedCrc raw else acc

/-- `DEC.RD <raw>, quantity` (R128), refused below its precondition (R126). -/
def execDecRd (raw : List Byte) (quantity : Word) (s : State) : Result :=
  if decodeReadPrecondition raw quantity then
    .next ((s.withAcc (recomputedCrc raw)).withOut (.decoded (decodeRead raw quantity)))
  else .refused .decoderPrecondition

/-- `DEC.WR <raw>` (R135, R136). -/
def execDecWr (raw : List Byte) (s : State) : Result :=
  .next ((s.withAcc (accAfterDecodeWrite raw s.acc)).withOut (.decoded (decodeWrite raw)))

end Sys2Proof.Machine
end

