-- ==== Sys2Proof/Machine/Encoder.lean ====
section
/-! DEFINITION. The frame encoder (41_frame_encoder.md R110 to R117): no flag, no failure, no operand check; `ACC` is its
scratch and is left at the CRC of the body (R116; log 14). -/

namespace Sys2Proof.Machine

/-- `ENC.RD slave, start, quantity` (R113). -/
def execEncRd (slave : Byte) (start quantity : Word) (s : State) : Result :=
  .next ((s.withAcc (crc16 (readRequestBody slave start quantity))).withOut (.frame (encodeRead slave start quantity)))

/-- `ENC.WR slave, address, value` (R114). -/
def execEncWr (slave : Byte) (address value : Word) (s : State) : Result :=
  .next ((s.withAcc (crc16 (writeRequestBody slave address value))).withOut (.frame (encodeWrite slave address value)))

end Sys2Proof.Machine
end

