-- ==== Sys2Proof/Machine/Sequencer.lean ====
section
/-! DEFINITION. The serial-transaction sequencer (43_transaction_sequencer.md R145 to R162): its four steps and the two
commands made of them. -/

namespace Sys2Proof.Machine

/-- `EXPLEN(K, B)`: `5 + 2*B` for a read, 8 for a write, over the naturals (R148). -/
def expectedLength (k : RequestKind) (b : Word) : Nat :=
  match k with
  | .readHoldingRegisters => 5 + 2 * b.toNat
  | .writeSingleRegister => 8

/-- The body of the request frame (R113, R114, R117). -/
def requestBody (slave : Byte) (r : Request) : List Byte :=
  match r.k with
  | .readHoldingRegisters => readRequestBody slave r.a r.b
  | .writeSingleRegister => writeRequestBody slave r.a r.b

/-- The request frame (R150). -/
def requestFrame (slave : Byte) (r : Request) : List Byte :=
  match r.k with
  | .readHoldingRegisters => encodeRead slave r.a r.b
  | .writeSingleRegister => encodeWrite slave r.a r.b

/-- The request a command word stands for (R11, R66). -/
def requestOf (w : CmdWord) : Request := { k := requestKind (cmdK w), a := cmdA w, b := cmdB w }

/-- The registers of the core as `issue` leaves them, before the frame is handed over (R150, R28). `RXBUF` is a sequence of
length `RXLEN` (R18), so it is empty when `RXLEN` is 0 (log 20). -/
def State.latched (s : State) (r : Request) : State :=
  { s with
    req := r
    acc := crc16 (requestBody s.cfg.slave r)
    txbuf := requestFrame s.cfg.slave r
    explen := expectedLength r.k r.b
    rxbuf := []
    rxlen := 0
    result := none
    seq := .sent }

/-- The effect of `issue` (R150). -/
def State.issued (s : State) (w : CmdWord) : State :=
  emitTx (requestFrame s.cfg.slave (requestOf w)) (s.latched (requestOf w))

/-- `RXBUF <- raw; RXLEN <- len(raw)`, with the adapter having answered the one read (R152). -/
def State.received (s : State) : State :=
  { afterAnswer s.explen s with rxbuf := answer s.explen s, rxlen := (answer s.explen s).length }

/-- The result of decoding `raw` for a request (R152, R70). -/
def decodeFor (r : Request) (raw : List Byte) : TransactionResult :=
  match r.k with
  | .readHoldingRegisters => decodeRead raw r.b
  | .writeSingleRegister => decodeWrite raw

/-- `ACC` after decoding `raw` for a request (R127, R135; log 14). -/
def accAfterDecode (r : Request) (raw : List Byte) (acc : Word) : Word :=
  match r.k with
  | .readHoldingRegisters => recomputedCrc raw
  | .writeSingleRegister => accAfterDecodeWrite raw acc

/-- The effect of `collect`: a short read is `Timeout` and the decoder is not invoked; otherwise the decoder chosen by
`REQ.K` gives the result (R152, R222). -/
def State.collected (s : State) : State :=
  if (answer s.explen s).length < s.explen then s.received.raise .timeout
  else
    (s.received.withAcc (accAfterDecode s.req (answer s.explen s) s.acc)).finish
      (decodeFor s.req (answer s.explen s))

/-- `collect` invokes no decoder outside its precondition: for a read, `EXPLEN` covers `5 + 2*quantity`, or the answer is
short. False in no state a run reaches (R126, R152; log 19). -/
def State.collectDefined (s : State) : Bool :=
  match s.req.k with
  | .readHoldingRegisters =>
      decide (5 + 2 * s.req.b.toNat ≤ s.explen) || decide ((answer s.explen s).length < s.explen)
  | .writeSingleRegister => true

/-- Step `issue`: enabled in `Idle`; in any other state the command is neither taken nor dropped (R150, R149); a
configuration outside 1 to 247 is refused (R22). -/
def execIssue (cmd : CmdWord) (s : State) : Result :=
  if s.seq = .idle then (if s.cfg.legal then .next (s.issued cmd) else .refused .illegalConfiguration)
  else .next (s.hold (.op (.issue cmd)))

/-- Step `turnaround`: enabled in `Sent` (R151). -/
def execTurnaround (s : State) : Result := if s.seq = .sent then .next s.turnedAround else .fault .stepNotEnabled

/-- Step `collect`: enabled in `AwaitingResponse` (R152). -/
def execCollect (s : State) : Result :=
  if s.seq = .awaitingResponse then
    (if s.collectDefined then .next s.collected else .refused .decoderPrecondition)
  else .fault .stepNotEnabled

/-- Step `retire`: enabled in `Decoded` and `Failed` (R153). -/
def execRetire (s : State) : Result :=
  if s.seq = .decoded ∨ s.seq = .failed then .next s.retired else .fault .stepNotEnabled

/-- A whole transaction: the four steps, in order (R154, R155). -/
def State.transaction (s : State) (w : CmdWord) : State := (((s.issued w).turnedAround).collected).retired

/-- A command offered: taken in `Idle`, held in any other state (R149). -/
def transfer (w : CmdWord) (s : State) : Result :=
  if s.seq = .idle then (if s.cfg.legal then .next (s.transaction w) else .refused .illegalConfiguration)
  else .next (s.hold (.cmdWord w))

/-- `XFER.RD start, quantity` (R154). -/
def execXferRd (start quantity : Word) (s : State) : Result := transfer (packCmd false start quantity) s

/-- `XFER.WR address, value` (R155). -/
def execXferWr (address value : Word) (s : State) : Result := transfer (packCmd true address value) s

end Sys2Proof.Machine
end

