-- ==== Sys2Proof/Machine/Reconciler.lean ====
section
/-! DEFINITION. The host: the Register State Reconciler and its macro `RECONCILE` (45_host_reconciler.md R190 to R202), and
the session above it as far as the spec describes it (R203 to R207). -/

namespace Sys2Proof.Machine

/-- `MODE_REGISTER` (R52, R7). -/
def modeRegister : Word := 0x2000

/-- `FREQUENCY_REGISTER` (R52, R7). -/
def frequencyRegister : Word := 0x2001

/-- `modebits` (R191). -/
def modebits : OperatingMode → Word
  | .stop => 1
  | .run => 2
  | .reverse => 4
  | .forward => 8

/-- `modename`: the whole 16-bit value is compared, and every other value is unknown (R192). -/
def modename (v : Word) : ModeReading :=
  if v = 1 then .named .stop
  else if v = 2 then .named .run
  else if v = 4 then .named .reverse
  else if v = 8 then .named .forward
  else .unknown

/-- The frequency is accepted: `FREQ_MIN <= f <= FREQ_MAX`, tested on the integer before it is narrowed (R197). -/
def frequencyAccepted (f : Int) : Bool := decide (0 ≤ f) && decide (f ≤ 500)

/-- What the Reconciler does when its read fails. -/
inductive ReadFailurePolicy where
  | useDefaultSnapshot
deriving DecidableEq, Repr

/-- The policy "`onReadFailure: useDefaultSnapshot`", explicit and named (R200). -/
def onReadFailure : ReadFailurePolicy := .useDefaultSnapshot

/-- The hardcoded default snapshot (R200). -/
def defaultSnapshot : Snapshot := { mode := .named .stop, frequency := 0 }

/-- The snapshot when the read fails (R200). -/
def fallbackSnapshot (p : ReadFailurePolicy) : Snapshot :=
  match p with
  | .useDefaultSnapshot => defaultSnapshot

/-- The snapshot from the result of the read-back (R196, R201). -/
def snapshotOf (r : Option TransactionResult) : Snapshot :=
  match r with
  | some (.readOk [v0, v1]) => { mode := modename v0, frequency := v1 }
  | _ => fallbackSnapshot onReadFailure

/-- The command words `RECONCILE` expands to, in the order in which they are issued (R76, R196, R199). -/
def reconcileCommands : Option HostCommand → List CmdWord
  | none => [packCmd false modeRegister 2]
  | some c =>
      packCmd true modeRegister (modebits c.mode) ::
        ((if frequencyAccepted c.frequency then [packCmd true frequencyRegister (BitVec.ofInt 16 c.frequency)] else []) ++
          [packCmd false modeRegister 2])

/-- Transactions one after the other, each issued after the result of the one before has been taken (R199, R54). -/
def State.transactions (s : State) : List CmdWord → State
  | [] => s
  | w :: ws => (s.transaction w).transactions ws

/-- The effect of `RECONCILE`: the results of the writes are ignored, the last transaction is the read-back (R196, R198). -/
def State.reconciled (s : State) (command : Option HostCommand) : State :=
  let t := s.transactions (reconcileCommands command)
  { t with snapshot := some (snapshotOf t.result) }

/-- The end of a `RECONCILE`: the snapshot from the result of its last transaction (R196). -/
def State.concluded (s : State) : State := { s with host := none, snapshot := some (snapshotOf s.result) }

/-- The Reconciler is entered: its commands are to be issued, each after the result of the one before (R199; log 23). -/
def State.entered (s : State) (command : Option HostCommand) : State :=
  { s with host := some (reconcileCommands command) }

/-- The Reconciler's own next step, in `Idle`: it issues its next command, or ends after the last one; not at work, the
core "does nothing until a command is offered" (R199, R236). -/
def reconcilerStep (s : State) : Result :=
  match s.host with
  | none => .next s
  | some (w :: ws) => execIssue w { s with host := some ws }
  | some [] => .next s.concluded

/-- `RECONCILE none` or `RECONCILE mode, frequency` (R196): its first command waits while a transaction is in flight (R149).
This is the macro with no other move between its transactions; entered as a move of the host it is made step by step, and
other agents' moves may fall between (R58; log 23). -/
def execReconcile (command : Option HostCommand) (s : State) : Result :=
  if s.seq = .idle then (if s.cfg.legal then .next (s.reconciled command) else .refused .illegalConfiguration)
  else .next (s.hold (.op (.reconcile command)))

/-- The inbound mode name: one of four names, exactly; anything else, an absent one too, is `Stop` (R203, R204, D23). -/
def inboundMode (name : Option String) : OperatingMode :=
  if name = some "run" then .run
  else if name = some "reverse" then .reverse
  else if name = some "forward" then .forward
  else .stop

/-- The inbound frequency field as the session's own parse leaves it; the parse of a numeral is out of scope (00_scope.md
section 3; log 29). -/
inductive FrequencyField where
  | absent
  | notNumeral
  | numeral (value : Int)
deriving DecidableEq, Repr

/-- A form submission (R203). -/
structure Submission where
  modeName : Option String
  frequency : FrequencyField
deriving DecidableEq, Repr

/-- The failure class of a session, the fourth kind of the taxonomy, never produced by the core (R205, R215). -/
inductive SessionError where
  | callerContractViolation
deriving DecidableEq, Repr

/-- The command of a session: absent as a whole without a submission; a frequency that is no numeral is a violation (R204,
R205, C7). -/
def sessionCommand : Option Submission → Except SessionError (Option HostCommand)
  | none => .ok none
  | some sub =>
      match sub.frequency with
      | .numeral f => .ok (some { mode := inboundMode sub.modeName, frequency := f })
      | .absent => .error .callerContractViolation
      | .notNumeral => .error .callerContractViolation

/-- The moves of a session: at most one `RECONCILE`, entered and made step by step, and none after a violation (R205,
R207). -/
def sessionOffers (sub : Option Submission) : Except SessionError (List Offer) :=
  match sessionCommand sub with
  | .ok command => .ok [.reconcile command]
  | .error e => .error e

end Sys2Proof.Machine
end

