-- ==== Sys2Proof/Machine/Dispatch.lean ====
section
/-! DEFINITION. One arm for each operation, each a direct call of its meaning. -/

namespace Sys2Proof.Machine

def exec (i : Instr) (s : State) : Host.Outcome State Fault Refusal :=
  match i with
  -- the frames, as events of the link
  | .reqFc03 slave start quantity crc => Sys2Proof.Machine.execReqFc03 slave start quantity crc s
  | .reqFc06 slave address value crc => Sys2Proof.Machine.execReqFc06 slave address value crc s
  | .rspFc06 slave function address value crc => Sys2Proof.Machine.execRspFc06 slave function address value crc s
  | .rspFc03 slave function byteCount registers crc => Sys2Proof.Machine.execRspFc03 slave function byteCount registers crc s
  -- the commands
  | .xferRd start quantity => Sys2Proof.Machine.execXferRd start quantity s
  | .xferWr address value => Sys2Proof.Machine.execXferWr address value s
  -- the unit functions
  | .crc16 bytes => Sys2Proof.Machine.execCrc16 bytes s
  | .crcInit => Sys2Proof.Machine.execCrcInit s
  | .crcUpd b => Sys2Proof.Machine.execCrcUpd b s
  | .crcGet => Sys2Proof.Machine.execCrcGet s
  | .encRd slave start quantity => Sys2Proof.Machine.execEncRd slave start quantity s
  | .encWr slave address value => Sys2Proof.Machine.execEncWr slave address value s
  | .decRd raw quantity => Sys2Proof.Machine.execDecRd raw quantity s
  | .decWr raw => Sys2Proof.Machine.execDecWr raw s
  -- the primitives of the adapter
  | .txWrite bytes => Sys2Proof.Machine.execTxWrite bytes s
  | .waitTurn => Sys2Proof.Machine.execWaitTurn s
  | .rxRead n => Sys2Proof.Machine.execRxRead n s
  -- the steps of the sequencer
  | .issue cmd => Sys2Proof.Machine.execIssue cmd s
  | .turnaround => Sys2Proof.Machine.execTurnaround s
  | .collect => Sys2Proof.Machine.execCollect s
  | .retire => Sys2Proof.Machine.execRetire s
  -- the macro of the host
  | .reconcile command => Sys2Proof.Machine.execReconcile command s

end Sys2Proof.Machine
end

