-- ==== Sys2Proof/Machine/Fetch.lean ====
section
/-! DEFINITION. Which move comes next (00_scope.md R6, 43_transaction_sequencer.md R149, R162): the next offer, when its
agent may step; otherwise the machine's own next step (log 1). -/

namespace Sys2Proof.Machine

/-- Whether the agent that makes an offer may step. -/
inductive Admission where
  /-- It may. -/
  | run
  /-- The host waits until the transaction in flight is over (R149, R162, R104). -/
  | wait
  /-- The model has no such move (R181). -/
  | deny
deriving DecidableEq, Repr

/-- Whose move an operation is (R6). -/
inductive Mover where
  /-- The host's: commands, the macro, unit functions evaluated on their own. -/
  | host
  /-- The sequencer's own steps. -/
  | sequencer
  /-- Frames on the link (log 12). -/
  | link
  /-- The adapter's primitives, which only the sequencer calls, inside its steps (R181). -/
  | primitive
deriving DecidableEq, Repr

/-- The mover of each operation (R6, R104, R149, R181). -/
def mover : Instr → Mover
  | .reqFc03 _ _ _ _ => .link
  | .reqFc06 _ _ _ _ => .link
  | .rspFc06 _ _ _ _ _ => .link
  | .rspFc03 _ _ _ _ _ => .link
  | .xferRd _ _ => .host
  | .xferWr _ _ => .host
  | .crc16 _ => .host
  | .crcInit => .host
  | .crcUpd _ => .host
  | .crcGet => .host
  | .encRd _ _ _ => .host
  | .encWr _ _ _ => .host
  | .decRd _ _ => .host
  | .decWr _ => .host
  | .txWrite _ => .primitive
  | .waitTurn => .primitive
  | .rxRead _ => .primitive
  | .issue _ => .host
  | .turnaround => .sequencer
  | .collect => .sequencer
  | .retire => .sequencer
  | .reconcile _ => .host

/-- A further move of the host waits while a transaction is in flight or the Reconciler is at work (R149, R162, R104,
R207). -/
def hostAdmission (s : State) : Admission := if s.seq = .idle ∧ s.host = none then .run else .wait

/-- The admission of an operation, by its mover. -/
def admission (i : Instr) (s : State) : Admission :=
  match mover i with
  | .host => hostAdmission s
  | .sequencer => .run
  | .link => .run
  | .primitive => .deny

/-- The machine's own next step: the sequencer's, and in `Idle` the Reconciler's (R146, R199). -/
def advance (s : State) : Result :=
  match s.seq with
  | .idle => reconcilerStep s
  | .sent => execTurnaround s
  | .awaitingResponse => execCollect s
  | .decoded => execRetire s
  | .failed => execRetire s

/-- A move that stands for no operation of the table, in the state in which it has been taken; the entry of the Reconciler
waits like every move of the host. Bytes on the link that form no frame of the table are bytes all the same (R183). -/
def runOther (o : Offer) (rest : List Offer) (s : State) : Result :=
  match o with
  | .cmdWord _ => .next { s with prog := rest }
  | .request bs => .next (deviceReceive bs { s with prog := rest })
  | .response bs => .next (arrive bs { s with prog := rest })
  | .op _ => .next { s with prog := rest }
  | .reset => .next (hardReset { s with prog := rest })
  | .reconcile command =>
      match hostAdmission s with
      | .run => .next ({ s with prog := rest }.entered command)
      | .wait => advance s
      | .deny => .refused .adapterExclusive
  | .proceed => advance { s with prog := rest }

/-- The move an offer stands for, in the state in which it has been taken. -/
def runOffer (o : Offer) (rest : List Offer) (s : State) : Result :=
  match decode o with
  | .instr i =>
      match admission i s with
      | .run => exec i { s with prog := rest }
      | .wait => advance s
      | .deny => .refused .adapterExclusive
  | .rejected _ => runOther o rest s

/-- A program written as a list of operations (R75, R76): one after the other, stopping at the first that stops. -/
def execAll : List Instr → State → Result
  | [], s => .next s
  | i :: is, s =>
      match exec i s with
      | .next t => execAll is t
      | .fault r => .fault r
      | .refused r => .refused r

/-- The offer is a command of the host to the core, or the Reconciler entered (R147, R161). -/
def isCommand : Offer → Bool
  | .cmdWord _ => true
  | .request _ => false
  | .response _ => false
  | .op (.xferRd _ _) => true
  | .op (.xferWr _ _) => true
  | .op (.issue _) => true
  | .op (.reconcile _) => true
  | .op _ => false
  | .reset => false
  | .reconcile _ => true
  | .proceed => false

/-- The end of a run: the host has no further command to offer, `SEQ = Idle`, and every result has been taken. It "says
nothing about the state of the device, the line or the adapter's receive queue", which may receive bytes still (R161).
While the Reconciler is at work, be it that only its snapshot is to be taken, the run is not over. DESIGN CHOICE (log 33). -/
def State.final (s : State) : Bool :=
  s.prog.all (fun o => !isCommand o) && decide (s.seq = .idle) && decide (s.host = none)

end Sys2Proof.Machine
end

