-- ==== Sys2Proof/Machine/Step.lean ====
section
/-! DEFINITION. One step of the machine, and how a program comes to stand where it fetches (log 25). -/

namespace Sys2Proof.Machine

/-- One step: the next offer, or the machine's own next step when none is left (R6, R150 to R153, R236). -/
def step (s : State) : Host.Outcome State Fault Refusal :=
  match s.prog with
  | [] => advance s
  | o :: rest => runOffer o rest s

/-- The table word stands at the head of the offers, as the command on `cmd` or the frame on the link that it encodes. -/
def State.withFetchWord (s : State) (nbits w : Nat) : State := { s with prog := offerOfTableWord nbits w :: s.prog }

end Sys2Proof.Machine
end

