-- ==== Sys2Proof/Machine/RegisterView.lean ====
section
/-! DEFINITION. The register view for a build that wants a memory-mapped one: read-only, ten indices (10_state.md R23, R24). -/

namespace Sys2Proof.Machine

/-- What an index of the view holds: a field of some width, or a buffer of bytes. -/
inductive ViewEntry where
  | field (width value : Nat)
  | buffer (bytes : List Byte)
deriving DecidableEq, Repr

/-- The word `K, A, B` of the latch `REQ` (R24 index 5). -/
def requestWord (r : Request) : CmdWord := packCmd r.k.bit r.a r.b

/-- The register view (R24). No index above 9 exists. -/
def registerView (s : State) : Nat → Option ViewEntry
  | 0 => some (.field 8 s.cfg.slave.toNat)
  | 1 => some (.field 16 s.cfg.turnaroundDelay.toNat)
  | 2 => some (.field 16 s.cfg.readTimeout.toNat)
  | 3 => some (.field 8 (statusByte s).toNat)
  | 4 => some (.field 16 s.acc.toNat)
  | 5 => some (.field 33 (requestWord s.req).toNat)
  | 6 => some (.field 18 s.explen)
  | 7 => some (.field 18 s.rxlen)
  | 8 => some (.buffer s.txbuf)
  | 9 => some (.buffer s.rxbuf)
  | _ => none

/-- Byte `i` of `TXBUF` at offset `i` (R24 index 8); refused while it holds no value (R30). -/
def viewTxbuf (s : State) (i : Nat) : Except Refusal (List Byte) := memRead s.txbuf i 1

/-- Byte `i` of `RXBUF` at offset `i` (R24 index 9); refused at `RXLEN` and above (R18, R30). -/
def viewRxbuf (s : State) (i : Nat) : Except Refusal (List Byte) := memRead s.rxbuf i 1

end Sys2Proof.Machine
end

