-- ==== Sys2Proof/Safety.lean ====
section
/-! DEFINITION. What counts as a safe run: the transitions of `SEQ` the spec allows, the invariant of the state, and the
premises of a run that never stops. -/

namespace Sys2Proof

open Machine

/-- The table of transitions of `SEQ`: "The only transitions of `SEQ`" (R146). -/
def Transition : Seq → Seq → Bool
  | .idle, .sent => true
  | .sent, .awaitingResponse => true
  | .awaitingResponse, .decoded => true
  | .awaitingResponse, .failed => true
  | .decoded, .idle => true
  | .failed, .idle => true
  | _, _ => false

/-- The invariant of the state: what 10_state.md says of its registers together. -/
structure Inv (s : State) : Prop where
  /-- `RXBUF` is "a byte sequence of length `RXLEN`" (R18). -/
  rxlen_eq : s.rxlen = s.rxbuf.length
  /-- `0 <= RXLEN <= EXPLEN` (R18). -/
  rxlen_le : s.rxlen ≤ s.explen
  /-- The largest value of `EXPLEN` (R17). -/
  explen_le : s.explen ≤ 131075
  /-- `TXBUF` has exactly 8 bytes once it holds a value (R16, R29). -/
  txbuf_length : s.txbuf = [] ∨ s.txbuf.length = 8
  /-- No result and no byte before the one read (R19, R150, R151). -/
  waiting : s.seq = .sent ∨ s.seq = .awaitingResponse → s.result = none ∧ s.rxbuf = []
  /-- In `Decoded`, `RESULT` is `ReadOk` or `WriteOk` (R14). -/
  decoded : s.seq = .decoded → ∃ r, s.result = some r ∧ r.isOk = true
  /-- In `Failed`, `RESULT` is `Failed(kind)` (R14). -/
  failed : s.seq = .failed → ∃ k, s.result = some (.failed k)
  /-- While a transaction is in flight the latches hold what `issue` wrote (R13, R16, R17). -/
  inFlight : s.seq ≠ .idle →
    s.explen = expectedLength s.req.k s.req.b ∧ s.txbuf = requestFrame s.cfg.slave s.req
  /-- A `ReadOk` answers a read and has `quantity` values (R12). -/
  readOk : ∀ vs, s.result = some (.readOk vs) →
    s.req.k = .readHoldingRegisters ∧ vs.length = s.req.b.toNat
  /-- A `WriteOk` answers a write (R12). -/
  writeOk : s.result = some .writeOk → s.req.k = .writeSingleRegister
  /-- The commands the Reconciler has still to issue are the last ones of some `RECONCILE` (R196, R199). -/
  host : ∀ ws, s.host = some ws → ∃ command, ws <:+ reconcileCommands command
  /-- The slave's registers are in canonical form. -/
  dev_wf : s.dev.wf = true

/-- What the host and the link may offer: commands, frames and other bytes, well-formed evaluations of unit functions, the
macro, reset; not the adapter's primitives (R181), and not the steps the sequencer makes of its own accord. -/
def Offer.admissible : Offer → Bool
  | .cmdWord _ => true
  | .request _ => true
  | .response _ => true
  | .reset => true
  | .reconcile _ => true
  | .proceed => true
  | .op i =>
      match i with
      | .txWrite _ => false
      | .waitTurn => false
      | .rxRead _ => false
      | .turnaround => false
      | .collect => false
      | .retire => false
      | i => i.wellFormed

/-- A safe state of a run: the invariant, a legal configuration (R22, R255), and admissible offers only. -/
structure Safe (s : State) : Prop where
  inv : Inv s
  legal : s.cfg.legal = true
  offers : ∀ o ∈ s.prog, o.admissible = true

end Sys2Proof
end

