-- ==== Sys2Proof/Certificates/Slice0/Obligations.lean ====
section
/-! DEFINITION. The statements about this model, for the provers. Each docstring names the rule of spec/ it formalises. -/

open Sys2Proof Sys2Proof.Machine

/-! ### The CRC generator -/

/-- R92: `SHIFT1` and `SHIFT8`; the shift is logical. -/
def Obligations.ShiftSteps : Prop :=
  ∀ a : Word,
    shift1 a = (if a.getLsbD 0 = true then (a >>> 1) ^^^ 0xA001#16 else a >>> 1) ∧
      (a >>> 1).getLsbD 15 = false ∧ shift8 a = shift1^[8] a

/-- R94: `CRC.UPD b` combines the byte into the low 8 bits, shifts 8 times, and changes nothing but `ACC`. -/
def Obligations.CrcUpdEffect : Prop :=
  ∀ (b : Byte) (s : State),
    exec (.crcUpd b) s = .next { s with acc := shift1^[8] (s.acc ^^^ b.setWidth 16) }

/-- R93: `CRC.INIT` sets `ACC` to 0xFFFF, whatever it was, and changes nothing else. -/
def Obligations.CrcInitEffect : Prop :=
  ∀ s : State, exec .crcInit s = .next { s with acc := 0xFFFF#16 }

/-- 40_crc.md R90, R95 and 41_frame_encoder.md R116, as the model reads them (logs 13, 14): `CRC.GET` returns `ACC` and
leaves it; the other units use `ACC` as scratch and leave in it the CRC they computed last; a decoder that computes none, and
a `collect` that does not invoke one, leave it alone. -/
def Obligations.AccumulatorIsScratch : Prop :=
  (∀ s : State, exec .crcGet s = .next { s with out := some (.crc s.acc) }) ∧
    (∀ x a b (s t : State), exec (.encRd x a b) s = .next t → t.acc = crc16 [x, 0x03, hi8 a, lo8 a, hi8 b, lo8 b]) ∧
    (∀ x a b (s t : State), exec (.encWr x a b) s = .next t → t.acc = crc16 [x, 0x06, hi8 a, lo8 a, hi8 b, lo8 b]) ∧
    (∀ raw q (s t : State), exec (.decRd raw q) s = .next t → t.acc = crc16 (raw.take (raw.length - 2))) ∧
    (∀ raw (s t : State), exec (.decWr raw) s = .next t → t.acc = if raw.length = 8 then crc16 (raw.take 6) else s.acc) ∧
    (∀ s t : State, exec .collect s = .next t → t.rxlen < t.explen → t.acc = s.acc)

/-- R96: `CRC16` is the fold of the byte update over the sequence in order, from 0xFFFF. -/
def Obligations.Crc16Effect : Prop :=
  ∀ (bs : List Byte) (s : State),
    exec (.crc16 bs) s =
      .next { s with
        acc := bs.foldl (fun a b => shift1^[8] (a ^^^ b.setWidth 16)) 0xFFFF#16
        out := some (.crc (bs.foldl (fun a b => shift1^[8] (a ^^^ b.setWidth 16)) 0xFFFF#16)) }

/-- R96: `CRC16` is `CRC.INIT`, one `CRC.UPD` a byte in increasing order, `CRC.GET`. -/
def Obligations.Crc16Expansion : Prop :=
  ∀ (bs : List Byte) (s : State),
    execAll (.crcInit :: (bs.map Instr.crcUpd ++ [.crcGet])) s = exec (.crc16 bs) s

/-- 40_crc.md section 4 (R97, R98): the table-driven update equals the bitwise one on every accumulator and byte; the printed
table holds `T[i] = SHIFT8(i)`, its entries are pairwise distinct, and only `T[0]` is below 0x0100. -/
def Obligations.TableEqualsBitwise : Prop :=
  (∀ (a : Word) (b : Byte),
    shift1^[8] (a ^^^ b.setWidth 16) =
      (a >>> 8) ^^^ shift1^[8] (((a ^^^ b.setWidth 16).extractLsb' 0 8).setWidth 16) ∧
    crcUpd a b = crcUpdTable a b) ∧
  crcTable.length = 256 ∧ crcTable.Nodup ∧
    ∀ i, i < 256 → crcTable.getD i 0 = shift8 (BitVec.ofNat 16 i) ∧ ((crcTable.getD i 0).toNat < 0x100 ↔ i = 0)

/-- R102: a sequence followed by two bytes has CRC zero exactly when the two bytes are its own CRC, low byte first. -/
def Obligations.CrcResidue : Prop :=
  ∀ (s : List Byte) (t0 t1 : Byte),
    crc16 (s ++ [t0, t1]) = 0 ↔ t0 = lo8 (crc16 s) ∧ t1 = hi8 (crc16 s)

/-- R101: appended low byte first, the CRC of a sequence is what the trailer carries and what a decoder recomputes over all
but the last two bytes, and the check passes. -/
def Obligations.CrcRoundTrip : Prop :=
  ∀ b raw : List Byte, raw = b ++ [lo8 (crc16 b), hi8 (crc16 b)] →
    crcOk raw = true ∧ be16 (byteAt raw (raw.length - 1)) (byteAt raw (raw.length - 2)) = crc16 b ∧
      crc16 (raw.take (raw.length - 2)) = crc16 b

/-- 40_crc.md section 5 (of R103, the part about one byte): a change confined to one byte, of the body or of the trailer, of
a frame whose CRC matches is always found, by both decoders. -/
def Obligations.OneByteErrorFound : Prop :=
  ∀ (raw : List Byte) (i : Nat) (b : Byte),
    2 ≤ raw.length → crcOk raw = true → i < raw.length → byteAt raw i ≠ b →
      crcOk (raw.set i b) = false ∧
        (∀ (q : Word) (s : State), 5 + 2 * q.toNat ≤ raw.length →
          ∃ t, exec (.decRd (raw.set i b) q) s = .next t ∧ t.out = some (.decoded (.failed .crcMismatch))) ∧
        (∀ s : State, raw.length = 8 →
          ∃ t, exec (.decWr (raw.set i b)) s = .next t ∧ t.out = some (.decoded (.failed .crcMismatch)))

/-! ### The frame encoder -/

/-- R113: `ENC.RD` returns the eight bytes of `REQ.FC03` for every operand, and changes nothing but its scratch `ACC` and its
result. -/
def Obligations.EncRdEffect : Prop :=
  ∀ (slave : Byte) (start quantity : Word) (s : State),
    ∃ t, exec (.encRd slave start quantity) s = .next t ∧
      t = { s with
        acc := t.acc
        out := some (.frame [slave, 0x03, hi8 start, lo8 start, hi8 quantity, lo8 quantity,
          lo8 (crc16 [slave, 0x03, hi8 start, lo8 start, hi8 quantity, lo8 quantity]),
          hi8 (crc16 [slave, 0x03, hi8 start, lo8 start, hi8 quantity, lo8 quantity])]) }

/-- R114: `ENC.WR` returns the eight bytes of `REQ.FC06` for every operand, and changes nothing but its scratch `ACC` and its
result. -/
def Obligations.EncWrEffect : Prop :=
  ∀ (slave : Byte) (address value : Word) (s : State),
    ∃ t, exec (.encWr slave address value) s = .next t ∧
      t = { s with
        acc := t.acc
        out := some (.frame [slave, 0x06, hi8 address, lo8 address, hi8 value, lo8 value,
          lo8 (crc16 [slave, 0x06, hi8 address, lo8 address, hi8 value, lo8 value]),
          hi8 (crc16 [slave, 0x06, hi8 address, lo8 address, hi8 value, lo8 value])]) }

/-- 41_frame_encoder.md section 3 (R115, and of R116 the last sentence): eight bytes always, and the frame determines the
operands and the operation that built it. -/
def Obligations.FrameDeterminesOperands : Prop :=
  ∀ (slave slave' : Byte) (a a' b b' : Word),
    (encodeRead slave a b).length = 8 ∧ (encodeWrite slave a b).length = 8 ∧
      (encodeRead slave a b = encodeRead slave' a' b' → slave = slave' ∧ a = a' ∧ b = b') ∧
      (encodeWrite slave a b = encodeWrite slave' a' b' → slave = slave' ∧ a = a' ∧ b = b') ∧
      encodeRead slave a b ≠ encodeWrite slave' a' b'

/-- R119: after `ENC.RD`, a device's answer with `quantity` arbitrary register values decodes to exactly those values in the
same order, for every quantity up to 127. -/
def Obligations.ReadResponseDecodes : Prop :=
  ∀ (slave : Byte) (start : Word) (vs : List Word) (s : State),
    vs.length ≤ 127 →
      ∃ t u, exec (.encRd slave start (BitVec.ofNat 16 vs.length)) s = .next t ∧
        exec (.decRd (sealFrame (slave :: 0x03 :: BitVec.ofNat 8 (2 * vs.length) :: registerBytes vs))
          (BitVec.ofNat 16 vs.length)) t = .next u ∧
        u = { s with acc := u.acc, out := some (.decoded (.readOk vs)) }

/-- 42_frame_decoder.md (R129, R137) and 41_frame_encoder.md (R118): neither decoder examines the slave address or the
function code, and `DEC.WR` no field at all: every sealed body of six bytes is accepted, a request of `ENC.RD` among them. -/
def Obligations.ContentNotExamined : Prop :=
  (∀ (slave function : Byte) (vs : List Word) (s : State),
    vs.length ≤ 127 →
      ∃ t, exec (.decRd (sealFrame (slave :: function :: BitVec.ofNat 8 (2 * vs.length) :: registerBytes vs))
          (BitVec.ofNat 16 vs.length)) s = .next t ∧ t.out = some (.decoded (.readOk vs))) ∧
  (∀ (b0 b1 b2 b3 b4 b5 : Byte) (s : State),
    ∃ t, exec (.decWr (sealFrame [b0, b1, b2, b3, b4, b5])) s = .next t ∧ t.out = some (.decoded .writeOk)) ∧
  (∀ (slave : Byte) (start quantity : Word) (s : State),
    ∃ t, exec (.decWr (encodeRead slave start quantity)) s = .next t ∧ t.out = some (.decoded .writeOk))

/-! ### The frame decoder -/

/-- R128: `DEC.RD` checks the CRC, then the byte count, then takes the registers; it changes nothing but its scratch `ACC`
and its result. -/
def Obligations.DecRdEffect : Prop :=
  ∀ (raw : List Byte) (q : Word) (s : State),
    5 + 2 * q.toNat ≤ raw.length →
      ∃ t r, exec (.decRd raw q) s = .next t ∧ t = { s with acc := t.acc, out := some (.decoded r) } ∧
        (crc16 (raw.take (raw.length - 2)) ≠ be16 (byteAt raw (raw.length - 1)) (byteAt raw (raw.length - 2)) →
          r = .failed .crcMismatch) ∧
        (crc16 (raw.take (raw.length - 2)) = be16 (byteAt raw (raw.length - 1)) (byteAt raw (raw.length - 2)) →
          (byteAt raw 2).toNat ≠ 2 * q.toNat → r = .failed .unexpectedByteCount) ∧
        (crc16 (raw.take (raw.length - 2)) = be16 (byteAt raw (raw.length - 1)) (byteAt raw (raw.length - 2)) →
          (byteAt raw 2).toNat = 2 * q.toNat →
            ∃ vs, r = .readOk vs ∧ vs.length = q.toNat ∧
              ∀ i, i < q.toNat → vs[i]? = some (be16 (byteAt raw (3 + 2 * i)) (byteAt raw (4 + 2 * i))))

/-- R135: `DEC.WR` checks the length and the CRC and nothing else; it changes nothing but its scratch `ACC` and its result. -/
def Obligations.DecWrEffect : Prop :=
  ∀ (raw : List Byte) (s : State),
    ∃ t r, exec (.decWr raw) s = .next t ∧ t = { s with acc := t.acc, out := some (.decoded r) } ∧
      (raw.length ≠ 8 → r = .failed .timeout) ∧
      (raw.length = 8 → crc16 (raw.take 6) ≠ be16 (byteAt raw 7) (byteAt raw 6) → r = .failed .crcMismatch) ∧
      (raw.length = 8 → crc16 (raw.take 6) = be16 (byteAt raw 7) (byteAt raw 6) → r = .writeOk)

/-- 42_frame_decoder.md section 2 (R133, its part on large quantities): for a quantity of 128 or more no input gives `ReadOk`. -/
def Obligations.LargeReadNeverOk : Prop :=
  ∀ (raw : List Byte) (q : Word) (s : State),
    128 ≤ q.toNat → 5 + 2 * q.toNat ≤ raw.length →
      ∃ t, exec (.decRd raw q) s = .next t ∧
        (t.out = some (.decoded (.failed .crcMismatch)) ∨ t.out = some (.decoded (.failed .unexpectedByteCount)))

/-- R140: what a success of a decoder guarantees. -/
def Obligations.DecoderGuarantees : Prop :=
  (∀ (raw : List Byte) (q : Word) (vs : List Word) (s t : State),
    exec (.decRd raw q) s = .next t → t.out = some (.decoded (.readOk vs)) →
      5 + 2 * q.toNat ≤ raw.length ∧
        raw = sealFrame (raw.take (raw.length - 2)) ∧
        (byteAt raw 2).toNat = 2 * q.toNat ∧
        registerBytes vs = (raw.drop 3).take (2 * q.toNat)) ∧
  (∀ (raw : List Byte) (s t : State),
    exec (.decWr raw) s = .next t → t.out = some (.decoded .writeOk) →
      raw.length = 8 ∧ raw = sealFrame (raw.take 6))

/-- R141: the echo of a write request decodes as success, and with any one byte changed as `CrcMismatch`. -/
def Obligations.WriteEcho : Prop :=
  ∀ (slave : Byte) (address value : Word) (s : State),
    (∃ t, exec (.decWr (encodeWrite slave address value)) s = .next t ∧ t.out = some (.decoded .writeOk)) ∧
      ∀ (i : Nat) (x : Byte), i < 8 → byteAt (encodeWrite slave address value) i ≠ x →
        ∃ t, exec (.decWr ((encodeWrite slave address value).set i x)) s = .next t ∧
          t.out = some (.decoded (.failed .crcMismatch))

/-! ### The adapter's primitives and the frames on the link -/

/-- 44_serial_adapter.md section 1 (R175): `TX.WRITE` always completes; the bytes go to the adapter once, in order, and
every register of the core, every result and every returned value is unchanged. With no conforming slave behind the adapter
(a model's field, log 8) nothing else changes at all, the adapter's queue neither: that it is kept across a write is the
model's choice (log 32; R258 leaves it open). With the conforming slave a write request to that slave stores its value, and
any other bytes leave every byte of the slave's registers as it was. -/
def Obligations.TxWriteEffect : Prop :=
  ∀ (bs : List Byte) (s : State),
    (s.device ≠ .conforming → exec (.txWrite bs) s = .next { s with tx := s.tx ++ [bs] }) ∧
      ∃ t, exec (.txWrite bs) s = .next t ∧ t = { s with tx := s.tx ++ [bs], rx := t.rx, dev := t.dev } ∧
        ((∀ a v, bs ≠ encodeWrite s.cfg.slave a v) → ∀ x, readByte t.dev x = readByte s.dev x) ∧
        (s.device = .conforming → s.dev.wf = true → ∀ a v, bs = encodeWrite s.cfg.slave a v →
          readRegister t.dev a.toNat = v ∧
            ∀ x, x ≠ 2 * a.toNat → x ≠ 2 * a.toNat + 1 → readByte t.dev x = readByte s.dev x)

/-- R151: step `turnaround` changes `SEQ` and no other state. With it 44_serial_adapter.md R176: `WAIT.TURN` changes nothing
but `SEQ`; that it does so in `Sent` only is the model's reading (log 27). -/
def Obligations.TurnaroundEffect : Prop :=
  ∀ s : State,
    (s.seq = .sent → exec .turnaround s = .next { s with seq := .awaitingResponse }) ∧
      (s.seq = .sent → exec .waitTurn s = .next { s with seq := .awaitingResponse }) ∧
      (s.seq ≠ .sent → exec .waitTurn s = .next s)

/-- 44_serial_adapter.md section 1 (R176, R177, R183): `RX.READ n` always completes with at most `n` bytes and changes no
register of the core. Unless the slave is the silent one, the bytes available are those the adapter holds, whenever they
arrived, and after them those that arrive while it waits: the answer is the first `n` of them, and the rest stays with the
adapter (R258; log 7). Every sequence of 0 to `n` bytes is an answer, namely when it arrives while the read waits (the list
is the model's own, log 6; the queue has no bound, log 34). -/
def Obligations.RxReadEffect : Prop :=
  (∀ (n : Nat) (s : State), ∃ (t : State) (raw : List Byte),
    exec (.rxRead n) s = .next t ∧ raw.length ≤ n ∧
      t = { s with out := some (.bytes raw), rx := t.rx, arrivals := t.arrivals, freeReads := t.freeReads }) ∧
  (∀ (n : Nat) (s : State), s.device ≠ .silent → ∃ (t : State) (more : List Byte),
    exec (.rxRead n) s = .next t ∧ t.out = some (.bytes ((s.rx ++ more).take n)) ∧ t.rx = (s.rx ++ more).drop n) ∧
  (∀ (n : Nat) (burst : List Byte) (rest : List (List Byte)) (s : State),
    s.device ≠ .silent → s.arrivals = burst :: rest →
      exec (.rxRead n) s =
        .next { s with
          out := some (.bytes ((s.rx ++ burst).take n)), rx := (s.rx ++ burst).drop n, arrivals := rest }) ∧
  (∀ (n : Nat) (raw : List Byte) (rest : List (List Byte)) (s : State),
    raw.length ≤ n → s.device ≠ .silent → s.rx = [] → s.arrivals = raw :: rest →
      exec (.rxRead n) s = .next { s with out := some (.bytes raw), arrivals := rest })

/-- 44_serial_adapter.md section 2 (R184) with log 12: `REQ.FC06` with a valid CRC reaching the conforming slave of its
address stores the value, is answered by the same eight bytes, and every other byte of the slave's registers reads as before. The registers are in canonical form, which every step keeps (StepKeepsInv). -/
def Obligations.ReqFc06Store : Prop :=
  ∀ (address value : Word) (s : State),
    s.device = .conforming → s.dev.wf = true →
      ∃ t, exec (.reqFc06 s.cfg.slave address value
            (crc16 [s.cfg.slave, 0x06, hi8 address, lo8 address, hi8 value, lo8 value])) s = .next t ∧
        t = { s with dev := t.dev, rx := encodeWrite s.cfg.slave address value ++ s.rx } ∧
        readRegister t.dev address.toNat = value ∧
        ∀ a, a ≠ 2 * address.toNat → a ≠ 2 * address.toNat + 1 → readByte t.dev a = readByte s.dev a

/-- 44_serial_adapter.md section 2 (R184) with log 12: `REQ.FC03` with a valid CRC reaching the conforming slave of its
address is answered by the sealed response with the registers asked for, for every start and quantity, and stores nothing.
Where the spec states no byte count (a quantity above 127) and no register (past 0xFFFF), nothing is said of those bytes
(free values, log 11). -/
def Obligations.ReqFc03Answer : Prop :=
  ∀ (start quantity : Word) (s : State), s.device = .conforming →
    ∃ frame : List Byte,
      exec (.reqFc03 s.cfg.slave start quantity
          (crc16 [s.cfg.slave, 0x03, hi8 start, lo8 start, hi8 quantity, lo8 quantity])) s =
        .next { s with rx := frame ++ s.rx } ∧
      frame.length = 5 + 2 * quantity.toNat ∧ frame = sealFrame (frame.take (3 + 2 * quantity.toNat)) ∧
      byteAt frame 0 = s.cfg.slave ∧ byteAt frame 1 = 0x03 ∧
      (quantity.toNat ≤ 127 → (byteAt frame 2).toNat = 2 * quantity.toNat) ∧
      ∀ i, i < quantity.toNat → start.toNat + i ≤ 0xFFFF →
        be16 (byteAt frame (3 + 2 * i)) (byteAt frame (4 + 2 * i)) = readRegister s.dev (start.toNat + i)

/-- 44_serial_adapter.md section 2 (R183 to R185) with log 12: a request frame changes nothing when no conforming slave is
there, when it is for another address, or when its CRC is wrong ("otherwise: answer nothing"). -/
def Obligations.ReqIgnored : Prop :=
  ∀ (slave : Byte) (a b crc : Word) (s : State),
    ((s.device ≠ .conforming ∨ slave ≠ s.cfg.slave ∨ crc ≠ crc16 (fieldsBody slave fcRead a b)) →
      exec (.reqFc03 slave a b crc) s = .next s) ∧
    ((s.device ≠ .conforming ∨ slave ≠ s.cfg.slave ∨ crc ≠ crc16 (fieldsBody slave fcWrite a b)) →
      exec (.reqFc06 slave a b crc) s = .next s)

/-- 30_encoding.md section 3 (R64, R65) with log 12, the model's choice: a response frame reaches the adapter as its bytes,
which it holds behind those it holds already (without a bound: log 34), and no register of the core changes. -/
def Obligations.ResponseArrives : Prop :=
  (∀ (slave function : Byte) (address value crc : Word) (s : State),
    exec (.rspFc06 slave function address value crc) s =
      .next { s with
        rx := s.rx ++ [slave, function, hi8 address, lo8 address, hi8 value, lo8 value, lo8 crc, hi8 crc] }) ∧
  (∀ (slave function byteCount : Byte) (vs : List Word) (crc : Word) (s : State),
    exec (.rspFc03 slave function byteCount vs crc) s =
      .next { s with
        rx := s.rx ++ (slave :: function :: byteCount :: (vs.flatMap (fun v => [hi8 v, lo8 v]) ++ [lo8 crc, hi8 crc])) })

/-- 44_serial_adapter.md section 2 (R185): with the silent slave every `RX.READ` is answered by the empty sequence, and every
transaction ends `Failed(Timeout)`. That the adapter's queue and what is to arrive stay as they are at such a read is the
model's choice (log 8). -/
def Obligations.SilentSlave : Prop :=
  ∀ s : State, s.device = .silent →
    (∀ n : Nat, exec (.rxRead n) s = .next { s with out := some (.bytes []) }) ∧
      (s.seq = .idle → s.cfg.legal = true →
        (∀ a b : Word, ∃ t, exec (.xferRd a b) s = .next t ∧ t.res = s.res ++ [.failed .timeout]) ∧
          (∀ a b : Word, ∃ t, exec (.xferWr a b) s = .next t ∧ t.res = s.res ++ [.failed .timeout]))

/-! ### The sequencer

Where a statement says that a read, and what makes one, completes, the adapter's duty to answer it (R178) is built into the
model (log 24). -/

/-- R150: step `issue`, in `Idle`. What it leaves unchanged is stated too: besides the registers it writes, the adapter's
side alone changes, and that as `TX.WRITE` of the frame changes it (TxWriteEffect). -/
def Obligations.IssueEffect : Prop :=
  ∀ (k : Bool) (a b : Word) (s : State),
    s.seq = .idle → 1 ≤ s.cfg.slave.toNat → s.cfg.slave.toNat ≤ 247 →
      ∃ (t u : State) (frame : List Byte),
        exec (.issue (packCmd k a b)) s = .next t ∧
          frame = (if k then encodeWrite s.cfg.slave a b else encodeRead s.cfg.slave a b) ∧
          exec (.txWrite frame) s = .next u ∧
          t = { s with
            req := { k := if k then .writeSingleRegister else .readHoldingRegisters, a := a, b := b }
            acc := crc16 (frame.take 6)
            txbuf := frame
            explen := if k then 8 else 5 + 2 * b.toNat
            rxbuf := []
            rxlen := 0
            result := none
            tx := s.tx ++ [frame]
            seq := .sent
            rx := u.rx
            dev := u.dev }

/-- R149: while `SEQ` is not `Idle` a command is neither taken nor dropped: it stands where it stood and nothing else
changes; and a step of the machine that finds it there does not take it. -/
def Obligations.CommandHeld : Prop :=
  ∀ s : State, s.seq ≠ .idle →
    (∀ a b : Word, exec (.xferRd a b) s = .next { s with prog := .cmdWord (packCmd false a b) :: s.prog }) ∧
      (∀ a b : Word, exec (.xferWr a b) s = .next { s with prog := .cmdWord (packCmd true a b) :: s.prog }) ∧
      (∀ w : CmdWord, exec (.issue w) s = .next { s with prog := .op (.issue w) :: s.prog }) ∧
      (∀ c, exec (.reconcile c) s = .next { s with prog := .op (.reconcile c) :: s.prog }) ∧
      (∀ (w : CmdWord) (rest : List Offer) (t : State),
        s.prog = .cmdWord w :: rest → step s = .next t → t.prog = s.prog)

/-- 10_state.md 2.6 (R22), 42_frame_decoder.md section 1 (R126) and 60_exceptions.md section 6 (R230), decisions of the spec:
what is refused, and only that. In `Idle`, a configuration with a slave address outside 1 to 247, by everything that would
read it; and `DEC.RD` below its precondition. -/
def Obligations.RefusedOutsideContract : Prop :=
  (∀ s : State, s.seq = .idle →
    ((∃ w, exec (.issue w) s = .refused .illegalConfiguration) ↔ s.cfg.slave.toNat = 0 ∨ 248 ≤ s.cfg.slave.toNat) ∧
    (s.cfg.slave.toNat = 0 ∨ 248 ≤ s.cfg.slave.toNat →
      (∀ w, exec (.issue w) s = .refused .illegalConfiguration) ∧
        (∀ a b, exec (.xferRd a b) s = .refused .illegalConfiguration) ∧
        (∀ a b, exec (.xferWr a b) s = .refused .illegalConfiguration) ∧
        (∀ c, exec (.reconcile c) s = .refused .illegalConfiguration))) ∧
  (∀ (raw : List Byte) (q : Word) (s : State),
    exec (.decRd raw q) s = .refused .decoderPrecondition ↔ raw.length < 5 + 2 * q.toNat)

/-- R152: step `collect`. `raw` is what an `RX.READ` of `EXPLEN` bytes returns in that state, and the result of a read that
is not short is that of the decoder `REQ.K` chooses. It writes `RXBUF`, `RXLEN`, `RESULT`, `SEQ` and the scratch `ACC`. -/
def Obligations.CollectEffect : Prop :=
  ∀ s : State, s.seq = .awaitingResponse → s.explen = expectedLength s.req.k s.req.b →
    ∃ (t u : State) (raw : List Byte) (r : TransactionResult),
      exec .collect s = .next t ∧
        exec (.rxRead s.explen) s = .next u ∧ u.out = some (.bytes raw) ∧ raw.length ≤ s.explen ∧
        t = { s with
          rxbuf := raw
          rxlen := raw.length
          acc := t.acc
          result := some r
          seq := if r.isOk then .decoded else .failed
          rx := u.rx
          arrivals := u.arrivals
          freeReads := u.freeReads } ∧
        (raw.length < s.explen → r = .failed .timeout) ∧
        (raw.length = s.explen → s.req.k = .readHoldingRegisters →
          ∃ d, exec (.decRd raw s.req.b) s = .next d ∧ d.out = some (.decoded r)) ∧
        (raw.length = s.explen → s.req.k = .writeSingleRegister →
          ∃ d, exec (.decWr raw) s = .next d ∧ d.out = some (.decoded r))

/-- R153: step `retire` delivers `RESULT` on `res`, returns to `Idle`, and everything else keeps its value. -/
def Obligations.RetireEffect : Prop :=
  ∀ (s : State) (r : TransactionResult), s.seq = .decoded ∨ s.seq = .failed → s.result = some r →
    exec .retire s = .next { s with res := s.res ++ [r], seq := .idle }

/-- 43_transaction_sequencer.md section 1 (R146): a step asked for where it is not enabled is a stuck state, the model's
named fault (log 15). -/
def Obligations.StepsNotEnabled : Prop :=
  ∀ s : State,
    (exec .turnaround s = .fault .stepNotEnabled ↔ s.seq ≠ .sent) ∧
      (exec .collect s = .fault .stepNotEnabled ↔ s.seq ≠ .awaitingResponse) ∧
      (exec .retire s = .fault .stepNotEnabled ↔ s.seq ≠ .decoded ∧ s.seq ≠ .failed)

/-- 43_transaction_sequencer.md section 3 (R154, its function form, and R156): `XFER.RD` in `Idle` sends one frame, makes one
read, delivers one result, and is in `Idle` again; `raw` is what the adapter has after the frame was written. -/
def Obligations.XferRdEffect : Prop :=
  ∀ (start q : Word) (s : State), s.seq = .idle → s.cfg.legal = true →
    ∃ (t u v : State) (raw : List Byte),
      exec (.txWrite (encodeRead s.cfg.slave start q)) s = .next u ∧
        exec (.rxRead (5 + 2 * q.toNat)) u = .next v ∧ v.out = some (.bytes raw) ∧
        exec (.xferRd start q) s = .next t ∧
        t = { v with
          out := s.out
          req := { k := .readHoldingRegisters, a := start, b := q }
          txbuf := encodeRead s.cfg.slave start q
          explen := 5 + 2 * q.toNat
          rxbuf := raw
          rxlen := raw.length
          acc := t.acc
          result := t.result
          res := t.res } ∧
        t.seq = .idle ∧ t.tx = s.tx ++ [encodeRead s.cfg.slave start q] ∧
        ∃ r, t.result = some r ∧ t.res = s.res ++ [r] ∧
          (raw.length < 5 + 2 * q.toNat → r = .failed .timeout) ∧
          (5 + 2 * q.toNat ≤ raw.length →
            ∃ d, exec (.decRd raw q) s = .next d ∧ d.out = some (.decoded r))

/-- 43_transaction_sequencer.md section 3 (R155, its function form, and R156): `XFER.WR`, in the same way; the result does
not depend on the address or the value but through what the adapter answers. -/
def Obligations.XferWrEffect : Prop :=
  ∀ (address value : Word) (s : State), s.seq = .idle → s.cfg.legal = true →
    ∃ (t u v : State) (raw : List Byte),
      exec (.txWrite (encodeWrite s.cfg.slave address value)) s = .next u ∧
        exec (.rxRead 8) u = .next v ∧ v.out = some (.bytes raw) ∧
        exec (.xferWr address value) s = .next t ∧
        t = { v with
          out := s.out
          req := { k := .writeSingleRegister, a := address, b := value }
          txbuf := encodeWrite s.cfg.slave address value
          explen := 8
          rxbuf := raw
          rxlen := raw.length
          acc := t.acc
          result := t.result
          res := t.res } ∧
        t.seq = .idle ∧ t.tx = s.tx ++ [encodeWrite s.cfg.slave address value] ∧
        ∃ r, t.result = some r ∧ t.res = s.res ++ [r] ∧
          (raw.length < 8 → r = .failed .timeout) ∧
          (8 ≤ raw.length → ∃ d, exec (.decWr raw) s = .next d ∧ d.out = some (.decoded r))

/-- 30_encoding.md section 9 (R76, with R154, R155): a command is its four steps, in order. -/
def Obligations.CommandIsFourSteps : Prop :=
  ∀ (a b : Word) (s : State), s.seq = .idle → s.cfg.legal = true →
    execAll [.issue (packCmd false a b), .turnaround, .collect, .retire] s = exec (.xferRd a b) s ∧
      execAll [.issue (packCmd true a b), .turnaround, .collect, .retire] s = exec (.xferWr a b) s

/-- 43_transaction_sequencer.md section 5 (R160): an accepted command reaches `Decoded` or `Failed` after exactly three steps
of the machine, and a fourth leaves the state in which one step with the whole command would have left it. R160's proviso,
"provided the adapter answers the read", is the adapter's duty (R178, D1, U16): the model has it built in, since its
`collect` always has the answer (log 24), and the statement says nothing of an adapter that never answers. That a whole
command is one step is the model's choice (log 1). (While the Reconciler is at work the host offers no other command:
StepRunsDecoded.) -/
def Obligations.TransactionTerminates : Prop :=
  ∀ (w : CmdWord) (s : State),
    s.seq = .idle → s.host = none → s.cfg.legal = true → s.prog = [.op (.issue w)] →
    ∃ t : State, core.run 3 s = .next t ∧ (t.seq = .decoded ∨ t.seq = .failed) ∧
      core.run 4 s = step { s with prog := [.cmdWord w] }

/-- 43_transaction_sequencer.md section 1 (R146): no operation makes a transition of `SEQ` that the table does not have; a
command and the macro return to the state they started in. -/
def Obligations.SeqTransitions : Prop :=
  ∀ (i : Instr) (s t : State), exec i s = .next t → t.seq = s.seq ∨ Transition s.seq t.seq = true

/-- 10_state.md section 4 (R28): the outcome of a transaction depends on its request, the configuration and the adapter's
side alone: whatever an earlier transaction left in `ACC`, `REQ`, `TXBUF`, `EXPLEN`, `RXBUF`, `RXLEN` and `RESULT`, the next
one ends in the same state. -/
def Obligations.StaleStateIrrelevant : Prop :=
  ∀ (w : CmdWord) (s t : State) (req : Request) (acc : Word) (txbuf rxbuf : List Byte) (explen rxlen : Nat)
    (result : Option TransactionResult),
    s.seq = .idle → exec (decodeCmd w) s = .next t →
      exec (decodeCmd w)
          { s with
            req := req, acc := acc, txbuf := txbuf, rxbuf := rxbuf, explen := explen, rxlen := rxlen
            result := result } = .next t

/-- 00_scope.md section 5 (R8): no operation makes a value depend on the turnaround delay or the read timeout. -/
def Obligations.DelaysIrrelevant : Prop :=
  ∀ (d r : Word) (i : Instr) (s t : State),
    exec i s = .next t →
      exec i { s with cfg := { s.cfg with turnaroundDelay := d, readTimeout := r } } =
        .next { t with cfg := { t.cfg with turnaroundDelay := d, readTimeout := r } }

/-- 10_state.md 2.6 (R21) and 20_memory.md section 6 (R54): no step writes the configuration, and none alters a frame
already sent or a result already delivered. -/
def Obligations.NothingRewritten : Prop :=
  ∀ s t : State, step s = .next t → t.cfg = s.cfg ∧ s.tx <+: t.tx ∧ s.res <+: t.res

/-- 10_state.md 2.5 (R20) and the pseudocode of the unit functions: their frame. They leave every register but `ACC`, the
buffers, the channels, the device and every byte of its registers, and the host's side as they were, and `SEQ` as well. -/
def Obligations.UnitFrame : Prop :=
  ∀ (i : Instr) (s t : State),
    ((∃ bs, i = .crc16 bs) ∨ i = .crcInit ∨ (∃ b, i = .crcUpd b) ∨ i = .crcGet ∨ (∃ x a b, i = .encRd x a b) ∨
      (∃ x a b, i = .encWr x a b) ∨ (∃ raw q, i = .decRd raw q) ∨ ∃ raw, i = .decWr raw) →
    exec i s = .next t →
      t.cfg = s.cfg ∧ t.seq = s.seq ∧ t.req = s.req ∧ t.txbuf = s.txbuf ∧ t.explen = s.explen ∧ t.rxbuf = s.rxbuf ∧
        t.rxlen = s.rxlen ∧ t.result = s.result ∧ t.prog = s.prog ∧ t.res = s.res ∧ t.tx = s.tx ∧ t.rx = s.rx ∧
        t.arrivals = s.arrivals ∧ t.device = s.device ∧ t.freeReads = s.freeReads ∧ t.host = s.host ∧
        t.snapshot = s.snapshot ∧ t.dev = s.dev ∧ ∀ a, readByte t.dev a = readByte s.dev a

/-! ### The machine as a whole -/

/-- The step runs the decoded instruction (log 1): of the offer at the head of the list, exec of what it decodes to, in the
state in which the offer has been taken, when its agent may step; the machine's own next step, the offer untouched, when the
host must wait; the refusal by name when no party may make the move; and with no offer the machine's own next step. Which
is which: the host's moves run in `Idle` with the Reconciler not at work and wait otherwise (R104, R149, R162), the link's and
the sequencer's own run always, and the adapter's primitives are no move of any party (R181; log 17). The offers that decode
to no operation: other bytes on the link (R183), reset (R252), the entry of the Reconciler (R58; log 23), the machine's own
next step. -/
def Obligations.StepRunsDecoded : Prop :=
  (∀ (s : State) (o : Offer) (rest : List Offer) (i : Instr), decode o = .instr i →
    (s.prog = o :: rest → admission i s = .run → step s = exec i { s with prog := rest }) ∧
      (s.prog = o :: rest → admission i s = .wait → step s = advance s) ∧
      (s.prog = o :: rest → admission i s = .deny → step s = .refused .adapterExclusive)) ∧
  (∀ s : State, s.prog = [] → step s = advance s) ∧
  (∀ (i : Instr) (s : State),
    (mover i = .host → admission i s = if s.seq = .idle ∧ s.host = none then .run else .wait) ∧
      (mover i = .sequencer ∨ mover i = .link → admission i s = .run) ∧
      (admission i s = .deny ↔ (∃ bs, i = .txWrite bs) ∨ i = .waitTurn ∨ ∃ n, i = .rxRead n) ∧
      ((∃ bs, i = .crc16 bs) ∨ i = .crcInit ∨ (∃ b, i = .crcUpd b) ∨ i = .crcGet ∨ (∃ x a b, i = .encRd x a b) ∨
        (∃ x a b, i = .encWr x a b) ∨ (∃ raw q, i = .decRd raw q) ∨ (∃ raw, i = .decWr raw) ∨
        (∃ a b, i = .xferRd a b) ∨ (∃ a b, i = .xferWr a b) ∨ (∃ w, i = .issue w) ∨ (∃ c, i = .reconcile c) ↔
          mover i = .host)) ∧
  (∀ (s : State) (rest : List Offer) (bs : List Byte) (e : DecodeError),
    (decode (.request bs) = .rejected e → s.prog = .request bs :: rest →
      step s = .next (deviceReceive bs { s with prog := rest })) ∧
      (decode (.response bs) = .rejected e → s.prog = .response bs :: rest →
        step s = .next { s with prog := rest, rx := s.rx ++ bs })) ∧
  (∀ (s : State) (rest : List Offer) (c : Option HostCommand),
    (s.prog = .reset :: rest → step s = .next (hardReset { s with prog := rest })) ∧
      (s.prog = .proceed :: rest → step s = advance { s with prog := rest }) ∧
      (s.prog = .reconcile c :: rest →
        step s = if s.seq = .idle ∧ s.host = none then .next { s with prog := rest, host := some (reconcileCommands c) }
          else advance s))

/-- A command word placed for the next fetch is the one that the next step runs when the host may move (log 25). -/
def Obligations.FetchedCommandRuns : Prop :=
  ∀ (w : CmdWord) (s : State), s.seq = .idle → s.host = none →
    decodeTableWord 40 w.toNat = some (decodeCmd w) ∧
      step (s.withFetchWord 40 w.toNat) = exec (decodeCmd w) s

/-- The words and frames of the spec's examples, written out, decode to what they stand for (R62 to R66, 95_test_vectors.md). -/
def Obligations.ExampleWordsDecode : Prop :=
  decode (.cmdWord 0x120000002#33) = .instr (.xferWr 0x2000 2) ∧
    decode (.cmdWord 0x020000002#33) = .instr (.xferRd 0x2000 2) ∧
    decode (.request [0x01, 0x03, 0x20, 0x00, 0x00, 0x02, 0xCF, 0xCB]) = .instr (.reqFc03 1 0x2000 2 0xCBCF) ∧
    decode (.request [0x01, 0x06, 0x20, 0x01, 0x00, 0xFA, 0x53, 0x89]) = .instr (.reqFc06 1 0x2001 250 0x8953) ∧
    decode (.response [0x01, 0x06, 0x99, 0x99, 0x77, 0x77, 0x10, 0xAF]) = .instr (.rspFc06 1 6 0x9999 0x7777 0xAF10) ∧
    decode (.response [0x01, 0x03, 0x04, 0x00, 0x02, 0x00, 0xFA, 0xDB, 0xB0]) =
      .instr (.rspFc03 1 3 4 [2, 250] 0xB0DB)

/-- Decode and encode agree (R62 to R66): every operation that has an encoding, with any operands, is read back. -/
def Obligations.DecodeEncode : Prop :=
  ∀ (i : Instr) (o : Offer), encode i = some o → decode o = .instr i

/-- Encode and decode agree (R62 to R66): what the decoder reads from a word or a frame is encoded by that very word or
frame, so no two encodings stand for one operation. -/
def Obligations.EncodeDecode : Prop :=
  ∀ (o : Offer) (i : Instr), decode o = .instr i → encode i = some o ∨ o = .op i

/-- The invariant holds after reset (R29). -/
def Obligations.ResetInv : Prop := Inv State.reset

/-- Every step keeps the invariant (10_state.md R12, R14, R16 to R19). -/
def Obligations.StepKeepsInv : Prop :=
  ∀ s t : State, Inv s → step s = .next t → Inv t

/-- From a safe state every step goes on, to a safe state: no failure of a transaction, no answer of the adapter and no offer
of the host or the link stops the machine (R226, R230). That the adapter answers every read and takes every write, its duties
(R178, R186), is built into the model (log 24). -/
def Obligations.SafeStepGoesOn : Prop :=
  ∀ s : State, Safe s → ∃ t, step s = .next t ∧ Safe t

/-- 10_state.md section 5 and 70_reset_and_hazards.md section 1 (R29, R250): the reset values the spec gives; no byte of the
buffers holds a value. -/
def Obligations.ResetValues : Prop :=
  State.reset.seq = .idle ∧ State.reset.result = none ∧ State.reset.acc = 0xFFFF#16 ∧ State.reset.explen = 0 ∧
    State.reset.rxlen = 0 ∧ State.reset.cfg.turnaroundDelay = 50#16 ∧
    (∀ i, viewTxbuf State.reset i = .error .bufferNoValue) ∧ ∀ i, viewRxbuf State.reset i = .error .bufferNoValue

/-- 70_reset_and_hazards.md section 1 (R252): reset in any state abandons the transaction without a result; what was sent
stays sent, and what the adapter holds stays with it. That the host's and the slave's side keep their values, and that a
`RECONCILE` at work ends without a snapshot, is the model's choice (log 22). -/
def Obligations.ResetAbandons : Prop :=
  ∀ (s : State) (rest : List Offer), s.prog = .reset :: rest →
    ∃ t, step s = .next t ∧ t.seq = .idle ∧ t.result = none ∧ t.acc = 0xFFFF#16 ∧ t.explen = 0 ∧ t.rxlen = 0 ∧
      t.rxbuf = [] ∧ t.txbuf = [] ∧ t.res = s.res ∧ t.tx = s.tx ∧ t.rx = s.rx ∧
      t.arrivals = s.arrivals ∧ t.host = none ∧ t.snapshot = s.snapshot ∧ t.device = s.device ∧ t.dev = s.dev ∧
      t.cfg = s.cfg ∧ t.prog = rest

/-- 10_state.md 2.6 (R24): the register view. `STATUS` has the code of `SEQ` in bits 2:0 and `KIND` in bits 6:4, bits 3 and 7
are 0, and `KIND` is nonzero exactly in `Failed`, with the codes the table gives; the other indices show the register they
name, at its width, and no further index exists. In every state that meets the invariant. -/
def Obligations.StatusFields : Prop :=
  ∀ s : State, Inv s →
    ((statusByte s).getLsbD 3 = false ∧ (statusByte s).getLsbD 7 = false ∧
      (statusByte s).extractLsb' 4 3 = kindField s ∧ (kindField s ≠ 0 ↔ s.seq = .failed)) ∧
    ((s.seq = .idle → (statusByte s).extractLsb' 0 3 = 0) ∧ (s.seq = .sent → (statusByte s).extractLsb' 0 3 = 1) ∧
      (s.seq = .awaitingResponse → (statusByte s).extractLsb' 0 3 = 2) ∧
      (s.seq = .decoded → (statusByte s).extractLsb' 0 3 = 3) ∧ (s.seq = .failed → (statusByte s).extractLsb' 0 3 = 4)) ∧
    (s.seq = .failed →
      (s.result = some (.failed .timeout) → kindField s = 1) ∧
        (s.result = some (.failed .crcMismatch) → kindField s = 2) ∧
        (s.result = some (.failed .unexpectedByteCount) → kindField s = 3)) ∧
    (registerView s 0 = some (.field 8 s.cfg.slave.toNat) ∧
      registerView s 1 = some (.field 16 s.cfg.turnaroundDelay.toNat) ∧
      registerView s 2 = some (.field 16 s.cfg.readTimeout.toNat) ∧
      registerView s 3 = some (.field 8 (statusByte s).toNat) ∧ registerView s 4 = some (.field 16 s.acc.toNat) ∧
      (∃ w : BitVec 33, registerView s 5 = some (.field 33 w.toNat) ∧
        (w.getLsbD 32 = true ↔ s.req.k = .writeSingleRegister) ∧ w.extractLsb' 16 16 = s.req.a ∧
        w.extractLsb' 0 16 = s.req.b) ∧
      registerView s 6 = some (.field 18 s.explen) ∧ s.explen < 2 ^ 18 ∧
      registerView s 7 = some (.field 18 s.rxlen) ∧ s.rxlen < 2 ^ 18 ∧
      registerView s 8 = some (.buffer s.txbuf) ∧ (s.txbuf = [] ∨ s.txbuf.length = 8) ∧
      registerView s 9 = some (.buffer s.rxbuf) ∧ s.rxbuf.length = s.rxlen ∧ ∀ n, 9 < n → registerView s n = none)

/-! ### The host -/

/-- R196: `RECONCILE` in `Idle` is its transactions in order, the results of the writes ignored, and the snapshot from the
result of the last. -/
def Obligations.ReconcileEffect : Prop :=
  ∀ s : State, s.seq = .idle → s.cfg.legal = true →
    (∃ t, execAll [.xferRd 0x2000 2] s = .next t ∧
      exec (.reconcile none) s = .next { t with snapshot := some (snapshotOf t.result) }) ∧
    (∀ (m : OperatingMode) (f : Int), 0 ≤ f → f ≤ 500 →
      ∃ t, execAll [.xferWr 0x2000 (modebits m), .xferWr 0x2001 (BitVec.ofInt 16 f), .xferRd 0x2000 2] s = .next t ∧
        exec (.reconcile (some { mode := m, frequency := f })) s =
          .next { t with snapshot := some (snapshotOf t.result) }) ∧
    (∀ (m : OperatingMode) (f : Int), f < 0 ∨ 500 < f →
      ∃ t, execAll [.xferWr 0x2000 (modebits m), .xferRd 0x2000 2] s = .next t ∧
        exec (.reconcile (some { mode := m, frequency := f })) s =
          .next { t with snapshot := some (snapshotOf t.result) }) ∧
    (∀ v0 v1 : Word, snapshotOf (some (.readOk [v0, v1])) = { mode := modename v0, frequency := v1 }) ∧
    (∀ r : Option TransactionResult, (∀ v0 v1, r ≠ some (.readOk [v0, v1])) →
      snapshotOf r = { mode := .named .stop, frequency := 0 })

/-- 20_memory.md section 8 (R58), 45_host_reconciler.md section 3 (R199), with log 23: a `RECONCILE` entered as the host's
move is made step by step, one step a transition, and with no other move it ends, the run over (R161; log 33), where the
macro ends. It is not atomic: while it is at work the host's other moves wait, but bytes that come on the link reach the adapter at once,
and a reset ends it without a snapshot (the last is the model's choice, log 22). The adapter's duty to answer (R178) is built
into the model (log 24). -/
def Obligations.ReconcileStepwise : Prop :=
  (∀ (c : Option HostCommand) (s : State),
    s.seq = .idle → s.host = none → s.cfg.legal = true → s.prog = [.reconcile c] →
      ∃ t : State, core.run (2 + 4 * (reconcileCommands c).length) s = .next t ∧
        exec (.reconcile c) { s with prog := [] } = .next t ∧ t.final = true) ∧
  (∀ (s : State) (ws : List CmdWord) (rest : List Offer), s.host = some ws →
    (∀ bs, s.prog = .response bs :: rest → step s = .next { s with prog := rest, rx := s.rx ++ bs }) ∧
      (∀ w, s.prog = .cmdWord w :: rest → step s = advance s) ∧
      (s.prog = .reset :: rest →
        ∃ t, step s = .next t ∧ t.host = none ∧ t.seq = .idle ∧ t.snapshot = s.snapshot ∧ t.rx = s.rx ∧ t.tx = s.tx) ∧
      (s.seq = .idle → s.prog = [] → ws = [] →
        step s = .next { s with host := none, snapshot := some (snapshotOf s.result) }) ∧
      (∀ w us, s.seq = .idle → s.prog = [] → ws = w :: us → step s = exec (.issue w) { s with host := some us }))

/-- R199: one, two or three transactions, each with one frame and one result. -/
def Obligations.ReconcileCounts : Prop :=
  ∀ (c : Option HostCommand) (s : State), s.seq = .idle → s.cfg.legal = true →
    ∃ (t : State) (n : Nat), exec (.reconcile c) s = .next t ∧ t.seq = .idle ∧
      t.tx.length = s.tx.length + n ∧ t.res.length = s.res.length + n ∧
      (c = none → n = 1) ∧
      (∀ x, c = some x → (x.frequency < 0 ∨ 500 < x.frequency) → n = 2) ∧
      (∀ x, c = some x → 0 ≤ x.frequency → x.frequency ≤ 500 → n = 3)

/-- R200: whatever the kind of the read-back's failure, the snapshot is the default one; and it is so with the silent slave,
whatever was commanded. -/
def Obligations.ReadFailureFallback : Prop :=
  ∀ (c : Option HostCommand) (s : State), s.seq = .idle → s.cfg.legal = true →
    ∃ t, exec (.reconcile c) s = .next t ∧
      (∀ k, t.res.getLast? = some (.failed k) → t.snapshot = some { mode := .named .stop, frequency := 0 }) ∧
      (s.device = .silent → t.snapshot = some { mode := .named .stop, frequency := 0 })

/-- 45_host_reconciler.md section 3 (R196, its example, for every mode and every accepted frequency): against the conforming
slave a `RECONCILE` returns the snapshot of what it wrote, all three transactions succeed, and the slave's two registers
hold the values while every other byte of its registers reads as before. -/
def Obligations.EndToEnd : Prop :=
  ∀ (m : OperatingMode) (f : Int) (s : State),
    s.seq = .idle → s.cfg.legal = true → s.device = .conforming → s.dev.wf = true → 0 ≤ f → f ≤ 500 →
      ∃ t, exec (.reconcile (some { mode := m, frequency := f })) s = .next t ∧
        t.snapshot = some { mode := .named m, frequency := BitVec.ofInt 16 f } ∧
        t.res = s.res ++ [.writeOk, .writeOk, .readOk [modebits m, BitVec.ofInt 16 f]] ∧
        readRegister t.dev 0x2000 = modebits m ∧ readRegister t.dev 0x2001 = BitVec.ofInt 16 f ∧
        ∀ a, a < 2 * 0x2000 ∨ 2 * 0x2001 + 1 < a → readByte t.dev a = readByte s.dev a

/-- R208: the mode values are a bijection, and every other value of the register is unknown. -/
def Obligations.ModeBijection : Prop :=
  (∀ m : OperatingMode, modename (modebits m) = .named m) ∧
    modename 1 = .named .stop ∧ modename 2 = .named .run ∧ modename 4 = .named .reverse ∧ modename 8 = .named .forward ∧
    ∀ v : Word, v ≠ 1 → v ≠ 2 → v ≠ 4 → v ≠ 8 → modename v = .unknown
end

