-- ==== Sys2Proof/Laws/Operands.lean ====
section
/-! SUPPORT. Byte order, the fields of a command word, the serialisation of registers, and the parts of a frame. -/

namespace Sys2Proof.Machine

@[simp] theorem hi8_be16 (h l : Byte) : hi8 (be16 h l) = h := by
  ext i hi
  simp [hi8, be16, zext16, hi, show 8 + i < 16 by omega]

@[simp] theorem lo8_be16 (h l : Byte) : lo8 (be16 h l) = l := by
  ext i hi
  simp [lo8, be16, zext16, hi]
  omega

@[simp] theorem be16_hi8_lo8 (v : Word) : be16 (hi8 v) (lo8 v) = v := by
  ext i hi
  by_cases h : i < 8
  · simp [hi8, lo8, be16, zext16, hi, h]
  · simp [hi8, lo8, be16, zext16, hi, h, show i - 8 < 8 by omega, show 8 + (i - 8) = i by omega]

@[simp] theorem cmdK_packCmd (k : Bool) (a b : Word) : cmdK (packCmd k a b) = k := by
  simp [cmdK, packCmd]

@[simp] theorem cmdA_packCmd (k : Bool) (a b : Word) : cmdA (packCmd k a b) = a := by
  ext i hi
  simp [cmdA, packCmd, hi, show 16 + i < 32 by omega, show 16 + i < 33 by omega]

@[simp] theorem cmdB_packCmd (k : Bool) (a b : Word) : cmdB (packCmd k a b) = b := by
  ext i hi
  simp [cmdB, packCmd, hi, show i < 32 by omega, show i < 33 by omega]

/-- A command word is its three fields. -/
@[simp] theorem packCmd_fields (w : CmdWord) : packCmd (cmdK w) (cmdA w) (cmdB w) = w := by
  ext i hi
  by_cases h : i < 16
  · simp [cmdA, cmdB, cmdK, packCmd, hi, h, show i < 32 by omega]
  · by_cases h2 : i < 32
    · simp [cmdA, cmdB, cmdK, packCmd, hi, h, h2, show i - 16 < 16 by omega, show 16 + (i - 16) = i by omega]
    · obtain rfl : i = 32 := by omega
      simp [cmdA, cmdB, cmdK, packCmd]

@[simp] theorem registerBytes_length (vs : List Word) : (registerBytes vs).length = 2 * vs.length := by
  induction vs with
  | nil => rfl
  | cons v vs ih => simp [registerBytes, ih]; omega

@[simp] theorem bytesRegisters_registerBytes (vs : List Word) : bytesRegisters (registerBytes vs) = vs := by
  induction vs with
  | nil => rfl
  | cons v vs ih => simp [registerBytes, bytesRegisters, ih]

/-- A byte sequence of even length is the serialisation of the registers it holds. -/
theorem registerBytes_bytesRegisters (bs : List Byte) (h : bs.length % 2 = 0) :
    registerBytes (bytesRegisters bs) = bs := by
  induction bs using bytesRegisters.induct with
  | case1 h l bs ih =>
      simp only [bytesRegisters, registerBytes, hi8_be16, lo8_be16, List.cons.injEq, true_and]
      exact ih (by simp at h; omega)
  | case2 bs hbs =>
      match bs, hbs with
      | [], _ => rfl
      | [_], _ => simp at h
      | a :: b :: t, hbs => exact absurd rfl (hbs a b t)

@[simp] theorem trailer_length (c : Word) : (trailer c).length = 2 := rfl

@[simp] theorem fieldsBody_length (slave function : Byte) (a b : Word) : (fieldsBody slave function a b).length = 6 := rfl

@[simp] theorem registersBody_length (slave function n : Byte) (vs : List Word) :
    (registersBody slave function n vs).length = 3 + 2 * vs.length := by
  simp [registersBody]; omega

@[simp] theorem sealFrame_length (body : List Byte) : (sealFrame body).length = body.length + 2 := by
  simp [sealFrame]

@[simp] theorem encodeRead_length (slave : Byte) (a b : Word) : (encodeRead slave a b).length = 8 := rfl

@[simp] theorem encodeWrite_length (slave : Byte) (a b : Word) : (encodeWrite slave a b).length = 8 := rfl

@[simp] theorem allButTrailer_append (body : List Byte) (c : Word) : allButTrailer (body ++ trailer c) = body := by
  simp [allButTrailer]

@[simp] theorem receivedCrc_append (body : List Byte) (c : Word) : receivedCrc (body ++ trailer c) = c := by
  simp [receivedCrc, byteAt, trailer, List.getD_eq_getElem?_getD]

/-- A sequence of two bytes or more is a body and a trailer. -/
theorem eq_append_trailer (raw : List Byte) (h : 2 ≤ raw.length) :
    raw = allButTrailer raw ++ trailer (receivedCrc raw) := by
  obtain ⟨body, t, rfl, ht⟩ : ∃ body t, raw = body ++ t ∧ t.length = 2 :=
    ⟨raw.take (raw.length - 2), raw.drop (raw.length - 2), by simp, by simp; omega⟩
  obtain ⟨x, y, rfl⟩ : ∃ x y, t = [x, y] := by
    match t, ht with
    | [x, y], _ => exact ⟨x, y, rfl⟩
  have : [x, y] = trailer (be16 y x) := by simp [trailer]
  rw [this]; simp

/-- The CRC check of a body with a trailer compares the two CRCs. -/
@[simp] theorem crcOk_append (body : List Byte) (c : Word) : crcOk (body ++ trailer c) = (crc16 body == c) := by
  simp [crcOk]

end Sys2Proof.Machine
end

