-- ==== Sys2Proof/Laws/Memory.lean ====
section
/-! SUPPORT. The slave's registers: a read after a write, other places untouched, and the canonical form kept by every
operation. -/

namespace Sys2Proof.Machine

theorem readByte_consCell (a : Nat) (v : Byte) (m : Memory) (b : Nat) (h : a = b → readByte m b = unlistedByte) :
    readByte (consCell a v m) b = if a = b then v else readByte m b := by
  unfold consCell
  split
  · rename_i hv
    split
    · rename_i hab; rw [h hab, hv]
    · rfl
  · simp [readByte]

/-- Below the lowest listed address nothing is listed. -/
theorem readByte_of_lt {lo : Nat} {m : Memory} (h : wfFrom lo m = true) {a : Nat} (ha : a < lo) :
    readByte m a = unlistedByte := by
  induction m generalizing lo with
  | nil => rfl
  | cons c m ih =>
      obtain ⟨k, v⟩ := c
      simp only [wfFrom, Bool.and_eq_true, decide_eq_true_eq] at h
      simp only [readByte, if_neg (show k ≠ a by omega)]
      exact ih h.2 (by omega)

theorem wfFrom_mono {lo lo' : Nat} {m : Memory} (h : wfFrom lo m = true) (hl : lo' ≤ lo) : wfFrom lo' m = true := by
  cases m with
  | nil => rfl
  | cons c m =>
      obtain ⟨k, v⟩ := c
      simp only [wfFrom, Bool.and_eq_true, decide_eq_true_eq] at h ⊢
      exact ⟨⟨by omega, h.1.2⟩, h.2⟩

theorem wfFrom_consCell {lo a : Nat} {v : Byte} {m : Memory} (ha : lo ≤ a) (h : wfFrom (a + 1) m = true) :
    wfFrom lo (consCell a v m) = true := by
  unfold consCell
  split
  · exact wfFrom_mono h (by omega)
  · simp_all [wfFrom]

theorem wfFrom_writeByte {lo : Nat} {m : Memory} (h : wfFrom lo m = true) {a : Nat} (ha : lo ≤ a) (v : Byte) :
    wfFrom lo (writeByte m a v) = true := by
  induction m generalizing lo with
  | nil => exact wfFrom_consCell ha rfl
  | cons c m ih =>
      obtain ⟨k, w⟩ := c
      simp only [wfFrom, Bool.and_eq_true, decide_eq_true_eq] at h
      simp only [writeByte]
      split
      · exact wfFrom_consCell ha (by simp [wfFrom, h.1.2, h.2]; omega)
      · split
        · rename_i hak
          exact wfFrom_consCell ha (by rw [hak]; exact h.2)
        · simp only [wfFrom, Bool.and_eq_true, decide_eq_true_eq]
          exact ⟨h.1, ih h.2 (by omega)⟩

/-- A write of one byte keeps the canonical form. -/
theorem writeByte_wf {m : Memory} (h : m.wf = true) (a : Nat) (v : Byte) : Memory.wf (writeByte m a v) = true :=
  wfFrom_writeByte h (Nat.zero_le a) v

/-- A write of one register keeps the canonical form. -/
theorem writeRegister_wf {m : Memory} (h : m.wf = true) (r : Nat) (v : Word) : Memory.wf (writeRegister m r v) = true :=
  writeByte_wf (writeByte_wf h _ _) _ _

/-- A write stores the byte, and leaves every other byte alone. -/
theorem readByte_writeByte_from {lo : Nat} {m : Memory} (h : wfFrom lo m = true) (a : Nat) (v : Byte) (b : Nat) :
    readByte (writeByte m a v) b = if a = b then v else readByte m b := by
  induction m generalizing lo with
  | nil => exact readByte_consCell a v [] b (fun _ => rfl)
  | cons c m ih =>
      obtain ⟨k, w⟩ := c
      simp only [wfFrom, Bool.and_eq_true, decide_eq_true_eq] at h
      simp only [writeByte]
      split
      · refine readByte_consCell a v _ b (fun hab => ?_)
        subst hab
        exact readByte_of_lt (lo := k) (by simp [wfFrom, h.1.2, h.2]) ‹_›
      · split
        · rename_i hak
          subst hak
          rw [readByte_consCell a v m b (fun hab => readByte_of_lt h.2 (by omega))]
          by_cases hab : a = b <;> simp [readByte, hab]
        · by_cases hkb : k = b
          · subst hkb
            simp [readByte, ‹¬a = k›]
          · simp only [readByte, if_neg hkb]
            exact ih h.2

theorem readByte_writeByte {m : Memory} (h : m.wf = true) (a : Nat) (v : Byte) (b : Nat) :
    readByte (writeByte m a v) b = if a = b then v else readByte m b :=
  readByte_writeByte_from h a v b

/-- A register written reads as written. -/
@[simp] theorem readRegister_writeRegister_same {m : Memory} (h : m.wf = true) (r : Nat) (v : Word) :
    readRegister (writeRegister m r v) r = v := by
  simp [readRegister, writeRegister, readByte_writeByte, h, writeByte_wf]

/-- The two bytes of a register apart, every byte reads as before. -/
theorem readByte_writeRegister_other {m : Memory} (h : m.wf = true) {r : Nat} {v : Word} {a : Nat} (h0 : a ≠ 2 * r)
    (h1 : a ≠ 2 * r + 1) : readByte (writeRegister m r v) a = readByte m a := by
  rw [writeRegister, readByte_writeByte (writeByte_wf h _ _), readByte_writeByte h, if_neg (Ne.symm h1),
    if_neg (Ne.symm h0)]

/-- Every other register reads as before. -/
theorem readRegister_writeRegister_other {m : Memory} (h : m.wf = true) {r q : Nat} {v : Word} (hq : q ≠ r) :
    readRegister (writeRegister m r v) q = readRegister m q := by
  rw [readRegister, readRegister, readByte_writeRegister_other h (by omega) (by omega),
    readByte_writeRegister_other h (by omega) (by omega)]

end Sys2Proof.Machine
end

