-- ==== Sys2Proof/Laws/State.lean ====
section
/-! SUPPORT. For each named update of the state, what each field is after it. -/

namespace Sys2Proof.Machine

variable (s : State)

@[simp] theorem isOk_readOk (vs : List Word) : (TransactionResult.readOk vs).isOk = true := rfl
@[simp] theorem isOk_writeOk : TransactionResult.writeOk.isOk = true := rfl
@[simp] theorem isOk_failed (k : FailureKind) : (TransactionResult.failed k).isOk = false := rfl

@[simp] theorem State.withAcc_cfg (a : Word) : (s.withAcc a).cfg = s.cfg := rfl
@[simp] theorem State.withAcc_seq (a : Word) : (s.withAcc a).seq = s.seq := rfl
@[simp] theorem State.withAcc_req (a : Word) : (s.withAcc a).req = s.req := rfl
@[simp] theorem State.withAcc_acc (a : Word) : (s.withAcc a).acc = a := rfl
@[simp] theorem State.withAcc_txbuf (a : Word) : (s.withAcc a).txbuf = s.txbuf := rfl
@[simp] theorem State.withAcc_explen (a : Word) : (s.withAcc a).explen = s.explen := rfl
@[simp] theorem State.withAcc_rxbuf (a : Word) : (s.withAcc a).rxbuf = s.rxbuf := rfl
@[simp] theorem State.withAcc_rxlen (a : Word) : (s.withAcc a).rxlen = s.rxlen := rfl
@[simp] theorem State.withAcc_result (a : Word) : (s.withAcc a).result = s.result := rfl
@[simp] theorem State.withAcc_prog (a : Word) : (s.withAcc a).prog = s.prog := rfl
@[simp] theorem State.withAcc_res (a : Word) : (s.withAcc a).res = s.res := rfl
@[simp] theorem State.withAcc_tx (a : Word) : (s.withAcc a).tx = s.tx := rfl
@[simp] theorem State.withAcc_rx (a : Word) : (s.withAcc a).rx = s.rx := rfl
@[simp] theorem State.withAcc_arrivals (a : Word) : (s.withAcc a).arrivals = s.arrivals := rfl
@[simp] theorem State.withAcc_device (a : Word) : (s.withAcc a).device = s.device := rfl
@[simp] theorem State.withAcc_dev (a : Word) : (s.withAcc a).dev = s.dev := rfl
@[simp] theorem State.withAcc_freeReads (a : Word) : (s.withAcc a).freeReads = s.freeReads := rfl
@[simp] theorem State.withAcc_out (a : Word) : (s.withAcc a).out = s.out := rfl
@[simp] theorem State.withAcc_host (a : Word) : (s.withAcc a).host = s.host := rfl
@[simp] theorem State.withAcc_snapshot (a : Word) : (s.withAcc a).snapshot = s.snapshot := rfl

@[simp] theorem State.withOut_cfg (v : UnitResult) : (s.withOut v).cfg = s.cfg := rfl
@[simp] theorem State.withOut_seq (v : UnitResult) : (s.withOut v).seq = s.seq := rfl
@[simp] theorem State.withOut_req (v : UnitResult) : (s.withOut v).req = s.req := rfl
@[simp] theorem State.withOut_acc (v : UnitResult) : (s.withOut v).acc = s.acc := rfl
@[simp] theorem State.withOut_txbuf (v : UnitResult) : (s.withOut v).txbuf = s.txbuf := rfl
@[simp] theorem State.withOut_explen (v : UnitResult) : (s.withOut v).explen = s.explen := rfl
@[simp] theorem State.withOut_rxbuf (v : UnitResult) : (s.withOut v).rxbuf = s.rxbuf := rfl
@[simp] theorem State.withOut_rxlen (v : UnitResult) : (s.withOut v).rxlen = s.rxlen := rfl
@[simp] theorem State.withOut_result (v : UnitResult) : (s.withOut v).result = s.result := rfl
@[simp] theorem State.withOut_prog (v : UnitResult) : (s.withOut v).prog = s.prog := rfl
@[simp] theorem State.withOut_res (v : UnitResult) : (s.withOut v).res = s.res := rfl
@[simp] theorem State.withOut_tx (v : UnitResult) : (s.withOut v).tx = s.tx := rfl
@[simp] theorem State.withOut_rx (v : UnitResult) : (s.withOut v).rx = s.rx := rfl
@[simp] theorem State.withOut_arrivals (v : UnitResult) : (s.withOut v).arrivals = s.arrivals := rfl
@[simp] theorem State.withOut_device (v : UnitResult) : (s.withOut v).device = s.device := rfl
@[simp] theorem State.withOut_dev (v : UnitResult) : (s.withOut v).dev = s.dev := rfl
@[simp] theorem State.withOut_freeReads (v : UnitResult) : (s.withOut v).freeReads = s.freeReads := rfl
@[simp] theorem State.withOut_out (v : UnitResult) : (s.withOut v).out = some v := rfl
@[simp] theorem State.withOut_host (v : UnitResult) : (s.withOut v).host = s.host := rfl
@[simp] theorem State.withOut_snapshot (v : UnitResult) : (s.withOut v).snapshot = s.snapshot := rfl

@[simp] theorem State.withSeq_cfg (q : Seq) : (s.withSeq q).cfg = s.cfg := rfl
@[simp] theorem State.withSeq_seq (q : Seq) : (s.withSeq q).seq = q := rfl
@[simp] theorem State.withSeq_req (q : Seq) : (s.withSeq q).req = s.req := rfl
@[simp] theorem State.withSeq_acc (q : Seq) : (s.withSeq q).acc = s.acc := rfl
@[simp] theorem State.withSeq_txbuf (q : Seq) : (s.withSeq q).txbuf = s.txbuf := rfl
@[simp] theorem State.withSeq_explen (q : Seq) : (s.withSeq q).explen = s.explen := rfl
@[simp] theorem State.withSeq_rxbuf (q : Seq) : (s.withSeq q).rxbuf = s.rxbuf := rfl
@[simp] theorem State.withSeq_rxlen (q : Seq) : (s.withSeq q).rxlen = s.rxlen := rfl
@[simp] theorem State.withSeq_result (q : Seq) : (s.withSeq q).result = s.result := rfl
@[simp] theorem State.withSeq_prog (q : Seq) : (s.withSeq q).prog = s.prog := rfl
@[simp] theorem State.withSeq_res (q : Seq) : (s.withSeq q).res = s.res := rfl
@[simp] theorem State.withSeq_tx (q : Seq) : (s.withSeq q).tx = s.tx := rfl
@[simp] theorem State.withSeq_rx (q : Seq) : (s.withSeq q).rx = s.rx := rfl
@[simp] theorem State.withSeq_arrivals (q : Seq) : (s.withSeq q).arrivals = s.arrivals := rfl
@[simp] theorem State.withSeq_device (q : Seq) : (s.withSeq q).device = s.device := rfl
@[simp] theorem State.withSeq_dev (q : Seq) : (s.withSeq q).dev = s.dev := rfl
@[simp] theorem State.withSeq_freeReads (q : Seq) : (s.withSeq q).freeReads = s.freeReads := rfl
@[simp] theorem State.withSeq_out (q : Seq) : (s.withSeq q).out = s.out := rfl
@[simp] theorem State.withSeq_host (q : Seq) : (s.withSeq q).host = s.host := rfl
@[simp] theorem State.withSeq_snapshot (q : Seq) : (s.withSeq q).snapshot = s.snapshot := rfl

@[simp] theorem State.hold_cfg (o : Offer) : (s.hold o).cfg = s.cfg := rfl
@[simp] theorem State.hold_seq (o : Offer) : (s.hold o).seq = s.seq := rfl
@[simp] theorem State.hold_req (o : Offer) : (s.hold o).req = s.req := rfl
@[simp] theorem State.hold_acc (o : Offer) : (s.hold o).acc = s.acc := rfl
@[simp] theorem State.hold_txbuf (o : Offer) : (s.hold o).txbuf = s.txbuf := rfl
@[simp] theorem State.hold_explen (o : Offer) : (s.hold o).explen = s.explen := rfl
@[simp] theorem State.hold_rxbuf (o : Offer) : (s.hold o).rxbuf = s.rxbuf := rfl
@[simp] theorem State.hold_rxlen (o : Offer) : (s.hold o).rxlen = s.rxlen := rfl
@[simp] theorem State.hold_result (o : Offer) : (s.hold o).result = s.result := rfl
@[simp] theorem State.hold_prog (o : Offer) : (s.hold o).prog = o :: s.prog := rfl
@[simp] theorem State.hold_res (o : Offer) : (s.hold o).res = s.res := rfl
@[simp] theorem State.hold_tx (o : Offer) : (s.hold o).tx = s.tx := rfl
@[simp] theorem State.hold_rx (o : Offer) : (s.hold o).rx = s.rx := rfl
@[simp] theorem State.hold_arrivals (o : Offer) : (s.hold o).arrivals = s.arrivals := rfl
@[simp] theorem State.hold_device (o : Offer) : (s.hold o).device = s.device := rfl
@[simp] theorem State.hold_dev (o : Offer) : (s.hold o).dev = s.dev := rfl
@[simp] theorem State.hold_freeReads (o : Offer) : (s.hold o).freeReads = s.freeReads := rfl
@[simp] theorem State.hold_out (o : Offer) : (s.hold o).out = s.out := rfl
@[simp] theorem State.hold_host (o : Offer) : (s.hold o).host = s.host := rfl
@[simp] theorem State.hold_snapshot (o : Offer) : (s.hold o).snapshot = s.snapshot := rfl

@[simp] theorem State.raise_cfg (k : FailureKind) : (s.raise k).cfg = s.cfg := rfl
@[simp] theorem State.raise_seq (k : FailureKind) : (s.raise k).seq = .failed := rfl
@[simp] theorem State.raise_req (k : FailureKind) : (s.raise k).req = s.req := rfl
@[simp] theorem State.raise_acc (k : FailureKind) : (s.raise k).acc = s.acc := rfl
@[simp] theorem State.raise_txbuf (k : FailureKind) : (s.raise k).txbuf = s.txbuf := rfl
@[simp] theorem State.raise_explen (k : FailureKind) : (s.raise k).explen = s.explen := rfl
@[simp] theorem State.raise_rxbuf (k : FailureKind) : (s.raise k).rxbuf = s.rxbuf := rfl
@[simp] theorem State.raise_rxlen (k : FailureKind) : (s.raise k).rxlen = s.rxlen := rfl
@[simp] theorem State.raise_result (k : FailureKind) : (s.raise k).result = some (.failed k) := rfl
@[simp] theorem State.raise_prog (k : FailureKind) : (s.raise k).prog = s.prog := rfl
@[simp] theorem State.raise_res (k : FailureKind) : (s.raise k).res = s.res := rfl
@[simp] theorem State.raise_tx (k : FailureKind) : (s.raise k).tx = s.tx := rfl
@[simp] theorem State.raise_rx (k : FailureKind) : (s.raise k).rx = s.rx := rfl
@[simp] theorem State.raise_arrivals (k : FailureKind) : (s.raise k).arrivals = s.arrivals := rfl
@[simp] theorem State.raise_device (k : FailureKind) : (s.raise k).device = s.device := rfl
@[simp] theorem State.raise_dev (k : FailureKind) : (s.raise k).dev = s.dev := rfl
@[simp] theorem State.raise_freeReads (k : FailureKind) : (s.raise k).freeReads = s.freeReads := rfl
@[simp] theorem State.raise_out (k : FailureKind) : (s.raise k).out = s.out := rfl
@[simp] theorem State.raise_host (k : FailureKind) : (s.raise k).host = s.host := rfl
@[simp] theorem State.raise_snapshot (k : FailureKind) : (s.raise k).snapshot = s.snapshot := rfl

@[simp] theorem State.retired_cfg : (s.retired).cfg = s.cfg := rfl
@[simp] theorem State.retired_seq : (s.retired).seq = .idle := rfl
@[simp] theorem State.retired_req : (s.retired).req = s.req := rfl
@[simp] theorem State.retired_acc : (s.retired).acc = s.acc := rfl
@[simp] theorem State.retired_txbuf : (s.retired).txbuf = s.txbuf := rfl
@[simp] theorem State.retired_explen : (s.retired).explen = s.explen := rfl
@[simp] theorem State.retired_rxbuf : (s.retired).rxbuf = s.rxbuf := rfl
@[simp] theorem State.retired_rxlen : (s.retired).rxlen = s.rxlen := rfl
@[simp] theorem State.retired_result : (s.retired).result = s.result := rfl
@[simp] theorem State.retired_prog : (s.retired).prog = s.prog := rfl
@[simp] theorem State.retired_res : (s.retired).res = s.res ++ s.result.toList := rfl
@[simp] theorem State.retired_tx : (s.retired).tx = s.tx := rfl
@[simp] theorem State.retired_rx : (s.retired).rx = s.rx := rfl
@[simp] theorem State.retired_arrivals : (s.retired).arrivals = s.arrivals := rfl
@[simp] theorem State.retired_device : (s.retired).device = s.device := rfl
@[simp] theorem State.retired_dev : (s.retired).dev = s.dev := rfl
@[simp] theorem State.retired_freeReads : (s.retired).freeReads = s.freeReads := rfl
@[simp] theorem State.retired_out : (s.retired).out = s.out := rfl
@[simp] theorem State.retired_host : (s.retired).host = s.host := rfl
@[simp] theorem State.retired_snapshot : (s.retired).snapshot = s.snapshot := rfl

@[simp] theorem State.latched_cfg (r : Request) : (s.latched r).cfg = s.cfg := rfl
@[simp] theorem State.latched_seq (r : Request) : (s.latched r).seq = .sent := rfl
@[simp] theorem State.latched_req (r : Request) : (s.latched r).req = r := rfl
@[simp] theorem State.latched_acc (r : Request) : (s.latched r).acc = crc16 (requestBody s.cfg.slave r) := rfl
@[simp] theorem State.latched_txbuf (r : Request) : (s.latched r).txbuf = requestFrame s.cfg.slave r := rfl
@[simp] theorem State.latched_explen (r : Request) : (s.latched r).explen = expectedLength r.k r.b := rfl
@[simp] theorem State.latched_rxbuf (r : Request) : (s.latched r).rxbuf = [] := rfl
@[simp] theorem State.latched_rxlen (r : Request) : (s.latched r).rxlen = 0 := rfl
@[simp] theorem State.latched_result (r : Request) : (s.latched r).result = none := rfl
@[simp] theorem State.latched_prog (r : Request) : (s.latched r).prog = s.prog := rfl
@[simp] theorem State.latched_res (r : Request) : (s.latched r).res = s.res := rfl
@[simp] theorem State.latched_tx (r : Request) : (s.latched r).tx = s.tx := rfl
@[simp] theorem State.latched_rx (r : Request) : (s.latched r).rx = s.rx := rfl
@[simp] theorem State.latched_arrivals (r : Request) : (s.latched r).arrivals = s.arrivals := rfl
@[simp] theorem State.latched_device (r : Request) : (s.latched r).device = s.device := rfl
@[simp] theorem State.latched_dev (r : Request) : (s.latched r).dev = s.dev := rfl
@[simp] theorem State.latched_freeReads (r : Request) : (s.latched r).freeReads = s.freeReads := rfl
@[simp] theorem State.latched_out (r : Request) : (s.latched r).out = s.out := rfl
@[simp] theorem State.latched_host (r : Request) : (s.latched r).host = s.host := rfl
@[simp] theorem State.latched_snapshot (r : Request) : (s.latched r).snapshot = s.snapshot := rfl

@[simp] theorem State.concluded_cfg : (s.concluded).cfg = s.cfg := rfl
@[simp] theorem State.concluded_seq : (s.concluded).seq = s.seq := rfl
@[simp] theorem State.concluded_req : (s.concluded).req = s.req := rfl
@[simp] theorem State.concluded_acc : (s.concluded).acc = s.acc := rfl
@[simp] theorem State.concluded_txbuf : (s.concluded).txbuf = s.txbuf := rfl
@[simp] theorem State.concluded_explen : (s.concluded).explen = s.explen := rfl
@[simp] theorem State.concluded_rxbuf : (s.concluded).rxbuf = s.rxbuf := rfl
@[simp] theorem State.concluded_rxlen : (s.concluded).rxlen = s.rxlen := rfl
@[simp] theorem State.concluded_result : (s.concluded).result = s.result := rfl
@[simp] theorem State.concluded_prog : (s.concluded).prog = s.prog := rfl
@[simp] theorem State.concluded_res : (s.concluded).res = s.res := rfl
@[simp] theorem State.concluded_tx : (s.concluded).tx = s.tx := rfl
@[simp] theorem State.concluded_rx : (s.concluded).rx = s.rx := rfl
@[simp] theorem State.concluded_arrivals : (s.concluded).arrivals = s.arrivals := rfl
@[simp] theorem State.concluded_device : (s.concluded).device = s.device := rfl
@[simp] theorem State.concluded_dev : (s.concluded).dev = s.dev := rfl
@[simp] theorem State.concluded_freeReads : (s.concluded).freeReads = s.freeReads := rfl
@[simp] theorem State.concluded_out : (s.concluded).out = s.out := rfl
@[simp] theorem State.concluded_host : (s.concluded).host = none := rfl
@[simp] theorem State.concluded_snapshot : (s.concluded).snapshot = some (snapshotOf s.result) := rfl

@[simp] theorem State.entered_cfg (c : Option HostCommand) : (s.entered c).cfg = s.cfg := rfl
@[simp] theorem State.entered_seq (c : Option HostCommand) : (s.entered c).seq = s.seq := rfl
@[simp] theorem State.entered_req (c : Option HostCommand) : (s.entered c).req = s.req := rfl
@[simp] theorem State.entered_acc (c : Option HostCommand) : (s.entered c).acc = s.acc := rfl
@[simp] theorem State.entered_txbuf (c : Option HostCommand) : (s.entered c).txbuf = s.txbuf := rfl
@[simp] theorem State.entered_explen (c : Option HostCommand) : (s.entered c).explen = s.explen := rfl
@[simp] theorem State.entered_rxbuf (c : Option HostCommand) : (s.entered c).rxbuf = s.rxbuf := rfl
@[simp] theorem State.entered_rxlen (c : Option HostCommand) : (s.entered c).rxlen = s.rxlen := rfl
@[simp] theorem State.entered_result (c : Option HostCommand) : (s.entered c).result = s.result := rfl
@[simp] theorem State.entered_prog (c : Option HostCommand) : (s.entered c).prog = s.prog := rfl
@[simp] theorem State.entered_res (c : Option HostCommand) : (s.entered c).res = s.res := rfl
@[simp] theorem State.entered_tx (c : Option HostCommand) : (s.entered c).tx = s.tx := rfl
@[simp] theorem State.entered_rx (c : Option HostCommand) : (s.entered c).rx = s.rx := rfl
@[simp] theorem State.entered_arrivals (c : Option HostCommand) : (s.entered c).arrivals = s.arrivals := rfl
@[simp] theorem State.entered_device (c : Option HostCommand) : (s.entered c).device = s.device := rfl
@[simp] theorem State.entered_dev (c : Option HostCommand) : (s.entered c).dev = s.dev := rfl
@[simp] theorem State.entered_freeReads (c : Option HostCommand) : (s.entered c).freeReads = s.freeReads := rfl
@[simp] theorem State.entered_out (c : Option HostCommand) : (s.entered c).out = s.out := rfl
@[simp] theorem State.entered_host (c : Option HostCommand) : (s.entered c).host = some (reconcileCommands c) := rfl
@[simp] theorem State.entered_snapshot (c : Option HostCommand) : (s.entered c).snapshot = s.snapshot := rfl

/-- The end of a transaction writes `RESULT` and `SEQ` and nothing else. -/
@[simp] theorem State.finish_cfg (r : TransactionResult) : (s.finish r).cfg = s.cfg := by cases r <;> rfl
@[simp] theorem State.finish_seq (r : TransactionResult) : (s.finish r).seq = (if r.isOk then .decoded else .failed) := by cases r <;> rfl
@[simp] theorem State.finish_req (r : TransactionResult) : (s.finish r).req = s.req := by cases r <;> rfl
@[simp] theorem State.finish_acc (r : TransactionResult) : (s.finish r).acc = s.acc := by cases r <;> rfl
@[simp] theorem State.finish_txbuf (r : TransactionResult) : (s.finish r).txbuf = s.txbuf := by cases r <;> rfl
@[simp] theorem State.finish_explen (r : TransactionResult) : (s.finish r).explen = s.explen := by cases r <;> rfl
@[simp] theorem State.finish_rxbuf (r : TransactionResult) : (s.finish r).rxbuf = s.rxbuf := by cases r <;> rfl
@[simp] theorem State.finish_rxlen (r : TransactionResult) : (s.finish r).rxlen = s.rxlen := by cases r <;> rfl
@[simp] theorem State.finish_result (r : TransactionResult) : (s.finish r).result = some r := by cases r <;> rfl
@[simp] theorem State.finish_prog (r : TransactionResult) : (s.finish r).prog = s.prog := by cases r <;> rfl
@[simp] theorem State.finish_res (r : TransactionResult) : (s.finish r).res = s.res := by cases r <;> rfl
@[simp] theorem State.finish_tx (r : TransactionResult) : (s.finish r).tx = s.tx := by cases r <;> rfl
@[simp] theorem State.finish_rx (r : TransactionResult) : (s.finish r).rx = s.rx := by cases r <;> rfl
@[simp] theorem State.finish_arrivals (r : TransactionResult) : (s.finish r).arrivals = s.arrivals := by cases r <;> rfl
@[simp] theorem State.finish_device (r : TransactionResult) : (s.finish r).device = s.device := by cases r <;> rfl
@[simp] theorem State.finish_dev (r : TransactionResult) : (s.finish r).dev = s.dev := by cases r <;> rfl
@[simp] theorem State.finish_freeReads (r : TransactionResult) : (s.finish r).freeReads = s.freeReads := by cases r <;> rfl
@[simp] theorem State.finish_out (r : TransactionResult) : (s.finish r).out = s.out := by cases r <;> rfl
@[simp] theorem State.finish_host (r : TransactionResult) : (s.finish r).host = s.host := by cases r <;> rfl
@[simp] theorem State.finish_snapshot (r : TransactionResult) : (s.finish r).snapshot = s.snapshot := by cases r <;> rfl

/-- Bytes arriving change the queue of the adapter, and nothing else. -/
@[simp] theorem arrive_cfg (bs : List Byte) : (arrive bs s).cfg = s.cfg := rfl
@[simp] theorem arrive_seq (bs : List Byte) : (arrive bs s).seq = s.seq := rfl
@[simp] theorem arrive_req (bs : List Byte) : (arrive bs s).req = s.req := rfl
@[simp] theorem arrive_acc (bs : List Byte) : (arrive bs s).acc = s.acc := rfl
@[simp] theorem arrive_txbuf (bs : List Byte) : (arrive bs s).txbuf = s.txbuf := rfl
@[simp] theorem arrive_explen (bs : List Byte) : (arrive bs s).explen = s.explen := rfl
@[simp] theorem arrive_rxbuf (bs : List Byte) : (arrive bs s).rxbuf = s.rxbuf := rfl
@[simp] theorem arrive_rxlen (bs : List Byte) : (arrive bs s).rxlen = s.rxlen := rfl
@[simp] theorem arrive_result (bs : List Byte) : (arrive bs s).result = s.result := rfl
@[simp] theorem arrive_prog (bs : List Byte) : (arrive bs s).prog = s.prog := rfl
@[simp] theorem arrive_res (bs : List Byte) : (arrive bs s).res = s.res := rfl
@[simp] theorem arrive_tx (bs : List Byte) : (arrive bs s).tx = s.tx := rfl
@[simp] theorem arrive_rx (bs : List Byte) : (arrive bs s).rx = s.rx ++ bs := rfl
@[simp] theorem arrive_arrivals (bs : List Byte) : (arrive bs s).arrivals = s.arrivals := rfl
@[simp] theorem arrive_device (bs : List Byte) : (arrive bs s).device = s.device := rfl
@[simp] theorem arrive_dev (bs : List Byte) : (arrive bs s).dev = s.dev := rfl
@[simp] theorem arrive_freeReads (bs : List Byte) : (arrive bs s).freeReads = s.freeReads := rfl
@[simp] theorem arrive_out (bs : List Byte) : (arrive bs s).out = s.out := rfl
@[simp] theorem arrive_host (bs : List Byte) : (arrive bs s).host = s.host := rfl
@[simp] theorem arrive_snapshot (bs : List Byte) : (arrive bs s).snapshot = s.snapshot := rfl

/-- Reset changes the registers of the core, ends what the Reconciler was at, and nothing else. -/
@[simp] theorem hardReset_cfg : (hardReset s).cfg = s.cfg := rfl
@[simp] theorem hardReset_seq : (hardReset s).seq = State.reset.seq := rfl
@[simp] theorem hardReset_req : (hardReset s).req = State.reset.req := rfl
@[simp] theorem hardReset_acc : (hardReset s).acc = State.reset.acc := rfl
@[simp] theorem hardReset_txbuf : (hardReset s).txbuf = State.reset.txbuf := rfl
@[simp] theorem hardReset_explen : (hardReset s).explen = State.reset.explen := rfl
@[simp] theorem hardReset_rxbuf : (hardReset s).rxbuf = State.reset.rxbuf := rfl
@[simp] theorem hardReset_rxlen : (hardReset s).rxlen = State.reset.rxlen := rfl
@[simp] theorem hardReset_result : (hardReset s).result = State.reset.result := rfl
@[simp] theorem hardReset_prog : (hardReset s).prog = s.prog := rfl
@[simp] theorem hardReset_res : (hardReset s).res = s.res := rfl
@[simp] theorem hardReset_tx : (hardReset s).tx = s.tx := rfl
@[simp] theorem hardReset_rx : (hardReset s).rx = s.rx := rfl
@[simp] theorem hardReset_arrivals : (hardReset s).arrivals = s.arrivals := rfl
@[simp] theorem hardReset_device : (hardReset s).device = s.device := rfl
@[simp] theorem hardReset_dev : (hardReset s).dev = s.dev := rfl
@[simp] theorem hardReset_freeReads : (hardReset s).freeReads = s.freeReads := rfl
@[simp] theorem hardReset_out : (hardReset s).out = s.out := rfl
@[simp] theorem hardReset_host : (hardReset s).host = State.reset.host := rfl
@[simp] theorem hardReset_snapshot : (hardReset s).snapshot = s.snapshot := rfl

end Sys2Proof.Machine
end

