-- ==== Sys2Proof/Laws/Ops.lean ====
section
/-! SUPPORT. What each shared operation can do, said once: the adapter's side changes nothing but the adapter's side, an
answer is never too long, and what a transaction leaves. -/

namespace Sys2Proof.Machine

variable (s : State)

/-! ### What stands behind the adapter -/

/-- Bytes reaching the device change its registers and the adapter's queue at most, and keep the canonical form. -/
theorem deviceReceive_spec (bs : List Byte) :
    ∃ rx dev, deviceReceive bs s = { s with rx := rx, dev := dev } ∧ (s.dev.wf = true → Memory.wf dev = true) := by
  unfold deviceReceive
  split
  · exact ⟨_, _, rfl, id⟩
  · unfold conformingReceive
    split
    · split
      · unfold conformingRequest
        split
        · exact ⟨_, _, rfl, fun h => writeRegister_wf h _ _⟩
        · split <;> exact ⟨_, _, rfl, id⟩
      · exact ⟨_, _, rfl, id⟩
    · exact ⟨_, _, rfl, id⟩
  · exact ⟨_, _, rfl, id⟩

theorem deviceReceive_wf (bs : List Byte) (h : s.dev.wf = true) : (deviceReceive bs s).dev.wf = true := by
  obtain ⟨rx, dev, he, hw⟩ := deviceReceive_spec s bs
  rw [he]; exact hw h

@[simp] theorem deviceReceive_cfg (bs : List Byte) : (deviceReceive bs s).cfg = s.cfg := by
  obtain ⟨_, _, he, -⟩ := deviceReceive_spec s bs; rw [he]
@[simp] theorem deviceReceive_seq (bs : List Byte) : (deviceReceive bs s).seq = s.seq := by
  obtain ⟨_, _, he, -⟩ := deviceReceive_spec s bs; rw [he]
@[simp] theorem deviceReceive_req (bs : List Byte) : (deviceReceive bs s).req = s.req := by
  obtain ⟨_, _, he, -⟩ := deviceReceive_spec s bs; rw [he]
@[simp] theorem deviceReceive_acc (bs : List Byte) : (deviceReceive bs s).acc = s.acc := by
  obtain ⟨_, _, he, -⟩ := deviceReceive_spec s bs; rw [he]
@[simp] theorem deviceReceive_txbuf (bs : List Byte) : (deviceReceive bs s).txbuf = s.txbuf := by
  obtain ⟨_, _, he, -⟩ := deviceReceive_spec s bs; rw [he]
@[simp] theorem deviceReceive_explen (bs : List Byte) : (deviceReceive bs s).explen = s.explen := by
  obtain ⟨_, _, he, -⟩ := deviceReceive_spec s bs; rw [he]
@[simp] theorem deviceReceive_rxbuf (bs : List Byte) : (deviceReceive bs s).rxbuf = s.rxbuf := by
  obtain ⟨_, _, he, -⟩ := deviceReceive_spec s bs; rw [he]
@[simp] theorem deviceReceive_rxlen (bs : List Byte) : (deviceReceive bs s).rxlen = s.rxlen := by
  obtain ⟨_, _, he, -⟩ := deviceReceive_spec s bs; rw [he]
@[simp] theorem deviceReceive_result (bs : List Byte) : (deviceReceive bs s).result = s.result := by
  obtain ⟨_, _, he, -⟩ := deviceReceive_spec s bs; rw [he]
@[simp] theorem deviceReceive_prog (bs : List Byte) : (deviceReceive bs s).prog = s.prog := by
  obtain ⟨_, _, he, -⟩ := deviceReceive_spec s bs; rw [he]
@[simp] theorem deviceReceive_res (bs : List Byte) : (deviceReceive bs s).res = s.res := by
  obtain ⟨_, _, he, -⟩ := deviceReceive_spec s bs; rw [he]
@[simp] theorem deviceReceive_tx (bs : List Byte) : (deviceReceive bs s).tx = s.tx := by
  obtain ⟨_, _, he, -⟩ := deviceReceive_spec s bs; rw [he]
@[simp] theorem deviceReceive_device (bs : List Byte) : (deviceReceive bs s).device = s.device := by
  obtain ⟨_, _, he, -⟩ := deviceReceive_spec s bs; rw [he]
@[simp] theorem deviceReceive_freeReads (bs : List Byte) : (deviceReceive bs s).freeReads = s.freeReads := by
  obtain ⟨_, _, he, -⟩ := deviceReceive_spec s bs; rw [he]
@[simp] theorem deviceReceive_out (bs : List Byte) : (deviceReceive bs s).out = s.out := by
  obtain ⟨_, _, he, -⟩ := deviceReceive_spec s bs; rw [he]
@[simp] theorem deviceReceive_snapshot (bs : List Byte) : (deviceReceive bs s).snapshot = s.snapshot := by
  obtain ⟨_, _, he, -⟩ := deviceReceive_spec s bs; rw [he]
@[simp] theorem deviceReceive_host (bs : List Byte) : (deviceReceive bs s).host = s.host := by
  obtain ⟨_, _, he, -⟩ := deviceReceive_spec s bs; rw [he]
@[simp] theorem deviceReceive_arrivals (bs : List Byte) : (deviceReceive bs s).arrivals = s.arrivals := by
  obtain ⟨_, _, he, -⟩ := deviceReceive_spec s bs; rw [he]

/-- Without a conforming slave nothing is known of the device, and nothing changes. -/
theorem deviceReceive_of_ne (bs : List Byte) (h : s.device ≠ .conforming) : deviceReceive bs s = s := by
  unfold deviceReceive
  split <;> simp_all

/-- What the device does depends on the device, the configuration and the adapter's side alone. -/
theorem deviceReceive_congr (bs : List Byte) {s u : State} (hd : u.device = s.device) (hc : u.cfg.slave = s.cfg.slave)
    (hm : u.dev = s.dev) (hr : u.rx = s.rx) :
    (deviceReceive bs u).rx = (deviceReceive bs s).rx ∧ (deviceReceive bs u).dev = (deviceReceive bs s).dev := by
  unfold deviceReceive
  rw [hd]
  split
  · exact ⟨hr, hm⟩
  · unfold conformingReceive
    split
    · rw [hc]
      split
      · unfold conformingRequest
        split
        · simp [hm, hr]
        · split <;> simp [hm, hr, hc]
      · exact ⟨hr, hm⟩
    · exact ⟨hr, hm⟩
  · exact ⟨hr, hm⟩

/-! ### `TX.WRITE` -/

@[simp] theorem emitTx_cfg (bs : List Byte) : (emitTx bs s).cfg = s.cfg := by simp [emitTx]
@[simp] theorem emitTx_seq (bs : List Byte) : (emitTx bs s).seq = s.seq := by simp [emitTx]
@[simp] theorem emitTx_req (bs : List Byte) : (emitTx bs s).req = s.req := by simp [emitTx]
@[simp] theorem emitTx_acc (bs : List Byte) : (emitTx bs s).acc = s.acc := by simp [emitTx]
@[simp] theorem emitTx_txbuf (bs : List Byte) : (emitTx bs s).txbuf = s.txbuf := by simp [emitTx]
@[simp] theorem emitTx_explen (bs : List Byte) : (emitTx bs s).explen = s.explen := by simp [emitTx]
@[simp] theorem emitTx_rxbuf (bs : List Byte) : (emitTx bs s).rxbuf = s.rxbuf := by simp [emitTx]
@[simp] theorem emitTx_rxlen (bs : List Byte) : (emitTx bs s).rxlen = s.rxlen := by simp [emitTx]
@[simp] theorem emitTx_result (bs : List Byte) : (emitTx bs s).result = s.result := by simp [emitTx]
@[simp] theorem emitTx_prog (bs : List Byte) : (emitTx bs s).prog = s.prog := by simp [emitTx]
@[simp] theorem emitTx_res (bs : List Byte) : (emitTx bs s).res = s.res := by simp [emitTx]
@[simp] theorem emitTx_tx (bs : List Byte) : (emitTx bs s).tx = s.tx ++ [bs] := by simp [emitTx]
@[simp] theorem emitTx_device (bs : List Byte) : (emitTx bs s).device = s.device := by simp [emitTx]
@[simp] theorem emitTx_freeReads (bs : List Byte) : (emitTx bs s).freeReads = s.freeReads := by simp [emitTx]
@[simp] theorem emitTx_out (bs : List Byte) : (emitTx bs s).out = s.out := by simp [emitTx]
@[simp] theorem emitTx_snapshot (bs : List Byte) : (emitTx bs s).snapshot = s.snapshot := by simp [emitTx]
@[simp] theorem emitTx_host (bs : List Byte) : (emitTx bs s).host = s.host := by simp [emitTx]
@[simp] theorem emitTx_arrivals (bs : List Byte) : (emitTx bs s).arrivals = s.arrivals := by simp [emitTx]

theorem emitTx_wf (bs : List Byte) (h : s.dev.wf = true) : (emitTx bs s).dev.wf = true := deviceReceive_wf _ bs h

/-! ### `RX.READ` -/

/-- "it is never longer than `n`" (R177). -/
theorem answer_length_le (n : Nat) : (answer n s).length ≤ n := by
  simp [answer]

/-- After an answer only the adapter's side and the counter of free values can differ. -/
theorem afterAnswer_spec (n : Nat) :
    ∃ rx arrivals k, afterAnswer n s = { s with rx := rx, arrivals := arrivals, freeReads := k } := by
  unfold afterAnswer
  split <;> exact ⟨_, _, _, rfl⟩

/-- What a read does when the slave is not the silent one: the bytes available to it are cut in two (R176, R177, R258). -/
theorem answer_append_afterAnswer (n : Nat) (h : s.device ≠ .silent) :
    answer n s ++ (afterAnswer n s).rx = s.rx ++ arriving s := by
  cases hd : s.device <;> simp_all [answer, afterAnswer, available]

@[simp] theorem afterAnswer_cfg (n : Nat) : (afterAnswer n s).cfg = s.cfg := by
  obtain ⟨_, _, _, he⟩ := afterAnswer_spec s n; rw [he]
@[simp] theorem afterAnswer_seq (n : Nat) : (afterAnswer n s).seq = s.seq := by
  obtain ⟨_, _, _, he⟩ := afterAnswer_spec s n; rw [he]
@[simp] theorem afterAnswer_req (n : Nat) : (afterAnswer n s).req = s.req := by
  obtain ⟨_, _, _, he⟩ := afterAnswer_spec s n; rw [he]
@[simp] theorem afterAnswer_acc (n : Nat) : (afterAnswer n s).acc = s.acc := by
  obtain ⟨_, _, _, he⟩ := afterAnswer_spec s n; rw [he]
@[simp] theorem afterAnswer_txbuf (n : Nat) : (afterAnswer n s).txbuf = s.txbuf := by
  obtain ⟨_, _, _, he⟩ := afterAnswer_spec s n; rw [he]
@[simp] theorem afterAnswer_explen (n : Nat) : (afterAnswer n s).explen = s.explen := by
  obtain ⟨_, _, _, he⟩ := afterAnswer_spec s n; rw [he]
@[simp] theorem afterAnswer_rxbuf (n : Nat) : (afterAnswer n s).rxbuf = s.rxbuf := by
  obtain ⟨_, _, _, he⟩ := afterAnswer_spec s n; rw [he]
@[simp] theorem afterAnswer_rxlen (n : Nat) : (afterAnswer n s).rxlen = s.rxlen := by
  obtain ⟨_, _, _, he⟩ := afterAnswer_spec s n; rw [he]
@[simp] theorem afterAnswer_result (n : Nat) : (afterAnswer n s).result = s.result := by
  obtain ⟨_, _, _, he⟩ := afterAnswer_spec s n; rw [he]
@[simp] theorem afterAnswer_prog (n : Nat) : (afterAnswer n s).prog = s.prog := by
  obtain ⟨_, _, _, he⟩ := afterAnswer_spec s n; rw [he]
@[simp] theorem afterAnswer_res (n : Nat) : (afterAnswer n s).res = s.res := by
  obtain ⟨_, _, _, he⟩ := afterAnswer_spec s n; rw [he]
@[simp] theorem afterAnswer_tx (n : Nat) : (afterAnswer n s).tx = s.tx := by
  obtain ⟨_, _, _, he⟩ := afterAnswer_spec s n; rw [he]
@[simp] theorem afterAnswer_device (n : Nat) : (afterAnswer n s).device = s.device := by
  obtain ⟨_, _, _, he⟩ := afterAnswer_spec s n; rw [he]
@[simp] theorem afterAnswer_dev (n : Nat) : (afterAnswer n s).dev = s.dev := by
  obtain ⟨_, _, _, he⟩ := afterAnswer_spec s n; rw [he]
@[simp] theorem afterAnswer_out (n : Nat) : (afterAnswer n s).out = s.out := by
  obtain ⟨_, _, _, he⟩ := afterAnswer_spec s n; rw [he]
@[simp] theorem afterAnswer_snapshot (n : Nat) : (afterAnswer n s).snapshot = s.snapshot := by
  obtain ⟨_, _, _, he⟩ := afterAnswer_spec s n; rw [he]
@[simp] theorem afterAnswer_host (n : Nat) : (afterAnswer n s).host = s.host := by
  obtain ⟨_, _, _, he⟩ := afterAnswer_spec s n; rw [he]

/-- What is available to a read depends on the adapter's side alone. -/
theorem available_congr {s u : State} (hd : u.device = s.device) (hr : u.rx = s.rx) (ha : u.arrivals = s.arrivals)
    (hf : u.freeReads = s.freeReads) : available u = available s := by
  simp [available, arriving, hd, hr, ha, hf]

theorem answer_congr (n : Nat) {s u : State} (hd : u.device = s.device) (hr : u.rx = s.rx) (ha : u.arrivals = s.arrivals)
    (hf : u.freeReads = s.freeReads) : answer n u = answer n s := by
  simp [answer, available_congr hd hr ha hf]

theorem afterAnswer_congr (n : Nat) {s u : State} (hd : u.device = s.device) (hr : u.rx = s.rx)
    (ha : u.arrivals = s.arrivals) (hf : u.freeReads = s.freeReads) :
    (afterAnswer n u).rx = (afterAnswer n s).rx ∧ (afterAnswer n u).arrivals = (afterAnswer n s).arrivals ∧
      (afterAnswer n u).freeReads = (afterAnswer n s).freeReads := by
  have := available_congr hd hr ha hf
  unfold afterAnswer
  rw [hd]
  split <;> simp [hr, ha, hf, this]

/-! ### The steps of the sequencer -/

@[simp] theorem requestFrame_length (slave : Byte) (r : Request) : (requestFrame slave r).length = 8 := by
  unfold requestFrame; split <;> rfl

theorem expectedLength_le (k : RequestKind) (b : Word) : expectedLength k b ≤ 131075 := by
  have := b.isLt
  cases k
  · simp only [expectedLength]; omega
  · simp [expectedLength]

theorem issued_eq (w : CmdWord) :
    s.issued w = emitTx (requestFrame s.cfg.slave (requestOf w)) (s.latched (requestOf w)) := rfl

@[simp] theorem State.issued_cfg (w : CmdWord) : (s.issued w).cfg = s.cfg := by simp [issued_eq]
@[simp] theorem State.issued_seq (w : CmdWord) : (s.issued w).seq = .sent := by simp [issued_eq]
@[simp] theorem State.issued_req (w : CmdWord) : (s.issued w).req = requestOf w := by simp [issued_eq]
@[simp] theorem State.issued_acc (w : CmdWord) : (s.issued w).acc = crc16 (requestBody s.cfg.slave (requestOf w)) := by simp [issued_eq]
@[simp] theorem State.issued_txbuf (w : CmdWord) : (s.issued w).txbuf = requestFrame s.cfg.slave (requestOf w) := by simp [issued_eq]
@[simp] theorem State.issued_explen (w : CmdWord) : (s.issued w).explen = expectedLength (requestOf w).k (requestOf w).b := by simp [issued_eq]
@[simp] theorem State.issued_rxbuf (w : CmdWord) : (s.issued w).rxbuf = [] := by simp [issued_eq]
@[simp] theorem State.issued_rxlen (w : CmdWord) : (s.issued w).rxlen = 0 := by simp [issued_eq]
@[simp] theorem State.issued_result (w : CmdWord) : (s.issued w).result = none := by simp [issued_eq]
@[simp] theorem State.issued_prog (w : CmdWord) : (s.issued w).prog = s.prog := by simp [issued_eq]
@[simp] theorem State.issued_res (w : CmdWord) : (s.issued w).res = s.res := by simp [issued_eq]
@[simp] theorem State.issued_tx (w : CmdWord) : (s.issued w).tx = s.tx ++ [requestFrame s.cfg.slave (requestOf w)] := by simp [issued_eq]
@[simp] theorem State.issued_device (w : CmdWord) : (s.issued w).device = s.device := by simp [issued_eq]
@[simp] theorem State.issued_freeReads (w : CmdWord) : (s.issued w).freeReads = s.freeReads := by simp [issued_eq]
@[simp] theorem State.issued_out (w : CmdWord) : (s.issued w).out = s.out := by simp [issued_eq]
@[simp] theorem State.issued_snapshot (w : CmdWord) : (s.issued w).snapshot = s.snapshot := by simp [issued_eq]
@[simp] theorem State.issued_host (w : CmdWord) : (s.issued w).host = s.host := by simp [issued_eq]
@[simp] theorem State.issued_arrivals (w : CmdWord) : (s.issued w).arrivals = s.arrivals := by simp [issued_eq]

theorem State.issued_wf (w : CmdWord) (h : s.dev.wf = true) : (s.issued w).dev.wf = true := emitTx_wf _ _ h

/-- The turnaround changes `SEQ` and nothing else. -/
theorem State.turnedAround_eq : s.turnedAround = { s with seq := if s.seq = .sent then .awaitingResponse else s.seq } := by
  unfold State.turnedAround
  split <;> simp_all [State.withSeq]

@[simp] theorem State.turnedAround_cfg : s.turnedAround.cfg = s.cfg := by rw [State.turnedAround_eq]
@[simp] theorem State.turnedAround_seq : s.turnedAround.seq = if s.seq = .sent then .awaitingResponse else s.seq := by rw [State.turnedAround_eq]
@[simp] theorem State.turnedAround_req : s.turnedAround.req = s.req := by rw [State.turnedAround_eq]
@[simp] theorem State.turnedAround_acc : s.turnedAround.acc = s.acc := by rw [State.turnedAround_eq]
@[simp] theorem State.turnedAround_txbuf : s.turnedAround.txbuf = s.txbuf := by rw [State.turnedAround_eq]
@[simp] theorem State.turnedAround_explen : s.turnedAround.explen = s.explen := by rw [State.turnedAround_eq]
@[simp] theorem State.turnedAround_rxbuf : s.turnedAround.rxbuf = s.rxbuf := by rw [State.turnedAround_eq]
@[simp] theorem State.turnedAround_rxlen : s.turnedAround.rxlen = s.rxlen := by rw [State.turnedAround_eq]
@[simp] theorem State.turnedAround_result : s.turnedAround.result = s.result := by rw [State.turnedAround_eq]
@[simp] theorem State.turnedAround_prog : s.turnedAround.prog = s.prog := by rw [State.turnedAround_eq]
@[simp] theorem State.turnedAround_res : s.turnedAround.res = s.res := by rw [State.turnedAround_eq]
@[simp] theorem State.turnedAround_tx : s.turnedAround.tx = s.tx := by rw [State.turnedAround_eq]
@[simp] theorem State.turnedAround_rx : s.turnedAround.rx = s.rx := by rw [State.turnedAround_eq]
@[simp] theorem State.turnedAround_device : s.turnedAround.device = s.device := by rw [State.turnedAround_eq]
@[simp] theorem State.turnedAround_dev : s.turnedAround.dev = s.dev := by rw [State.turnedAround_eq]
@[simp] theorem State.turnedAround_freeReads : s.turnedAround.freeReads = s.freeReads := by rw [State.turnedAround_eq]
@[simp] theorem State.turnedAround_out : s.turnedAround.out = s.out := by rw [State.turnedAround_eq]
@[simp] theorem State.turnedAround_snapshot : s.turnedAround.snapshot = s.snapshot := by rw [State.turnedAround_eq]
@[simp] theorem State.turnedAround_host : s.turnedAround.host = s.host := by rw [State.turnedAround_eq]
@[simp] theorem State.turnedAround_arrivals : s.turnedAround.arrivals = s.arrivals := by rw [State.turnedAround_eq]

@[simp] theorem State.received_cfg : s.received.cfg = s.cfg := by simp [State.received]
@[simp] theorem State.received_seq : s.received.seq = s.seq := by simp [State.received]
@[simp] theorem State.received_req : s.received.req = s.req := by simp [State.received]
@[simp] theorem State.received_acc : s.received.acc = s.acc := by simp [State.received]
@[simp] theorem State.received_txbuf : s.received.txbuf = s.txbuf := by simp [State.received]
@[simp] theorem State.received_explen : s.received.explen = s.explen := by simp [State.received]
@[simp] theorem State.received_rxbuf : s.received.rxbuf = answer s.explen s := by simp [State.received]
@[simp] theorem State.received_rxlen : s.received.rxlen = (answer s.explen s).length := by simp [State.received]
@[simp] theorem State.received_result : s.received.result = s.result := by simp [State.received]
@[simp] theorem State.received_prog : s.received.prog = s.prog := by simp [State.received]
@[simp] theorem State.received_res : s.received.res = s.res := by simp [State.received]
@[simp] theorem State.received_tx : s.received.tx = s.tx := by simp [State.received]
@[simp] theorem State.received_rx : s.received.rx = (afterAnswer s.explen s).rx := by simp [State.received]
@[simp] theorem State.received_arrivals : s.received.arrivals = (afterAnswer s.explen s).arrivals := by simp [State.received]
@[simp] theorem State.received_device : s.received.device = s.device := by simp [State.received]
@[simp] theorem State.received_dev : s.received.dev = s.dev := by simp [State.received]
@[simp] theorem State.received_freeReads : s.received.freeReads = (afterAnswer s.explen s).freeReads := by simp [State.received]
@[simp] theorem State.received_out : s.received.out = s.out := by simp [State.received]
@[simp] theorem State.received_snapshot : s.received.snapshot = s.snapshot := by simp [State.received]
@[simp] theorem State.received_host : s.received.host = s.host := by simp [State.received]

/-- What `collect` can do: a short read is a timeout and decodes nothing; otherwise the decoder's result ends the
transaction. -/
theorem State.collected_cases :
    ((answer s.explen s).length < s.explen ∧ s.collected = s.received.raise .timeout) ∨
      ((answer s.explen s).length = s.explen ∧
        s.collected = (s.received.withAcc (accAfterDecode s.req (answer s.explen s) s.acc)).finish
          (decodeFor s.req (answer s.explen s))) := by
  unfold State.collected
  have := answer_length_le s s.explen
  split
  · exact .inl ⟨‹_›, rfl⟩
  · exact .inr ⟨by omega, rfl⟩

/-- The result `collect` assigns. -/
def collectedResult (s : State) : TransactionResult :=
  if (answer s.explen s).length < s.explen then .failed .timeout else decodeFor s.req (answer s.explen s)

/-- `ACC` after `collect`. -/
def collectedAcc (s : State) : Word :=
  if (answer s.explen s).length < s.explen then s.acc else accAfterDecode s.req (answer s.explen s) s.acc

@[simp] theorem State.collected_cfg : s.collected.cfg = s.received.cfg := by
  rcases s.collected_cases with ⟨-, he⟩ | ⟨-, he⟩ <;> simp [he]
@[simp] theorem State.collected_seq : s.collected.seq = if (collectedResult s).isOk then .decoded else .failed := by
  rcases s.collected_cases with ⟨h, he⟩ | ⟨h, he⟩ <;> simp [he, h, collectedResult]
@[simp] theorem State.collected_req : s.collected.req = s.received.req := by
  rcases s.collected_cases with ⟨-, he⟩ | ⟨-, he⟩ <;> simp [he]
@[simp] theorem State.collected_acc : s.collected.acc = collectedAcc s := by
  rcases s.collected_cases with ⟨h, he⟩ | ⟨h, he⟩ <;> simp [he, h, collectedAcc]
@[simp] theorem State.collected_txbuf : s.collected.txbuf = s.received.txbuf := by
  rcases s.collected_cases with ⟨-, he⟩ | ⟨-, he⟩ <;> simp [he]
@[simp] theorem State.collected_explen : s.collected.explen = s.received.explen := by
  rcases s.collected_cases with ⟨-, he⟩ | ⟨-, he⟩ <;> simp [he]
@[simp] theorem State.collected_rxbuf : s.collected.rxbuf = s.received.rxbuf := by
  rcases s.collected_cases with ⟨-, he⟩ | ⟨-, he⟩ <;> simp [he]
@[simp] theorem State.collected_rxlen : s.collected.rxlen = s.received.rxlen := by
  rcases s.collected_cases with ⟨-, he⟩ | ⟨-, he⟩ <;> simp [he]
@[simp] theorem State.collected_result : s.collected.result = some (collectedResult s) := by
  rcases s.collected_cases with ⟨h, he⟩ | ⟨h, he⟩ <;> simp [he, h, collectedResult]
@[simp] theorem State.collected_prog : s.collected.prog = s.received.prog := by
  rcases s.collected_cases with ⟨-, he⟩ | ⟨-, he⟩ <;> simp [he]
@[simp] theorem State.collected_res : s.collected.res = s.received.res := by
  rcases s.collected_cases with ⟨-, he⟩ | ⟨-, he⟩ <;> simp [he]
@[simp] theorem State.collected_tx : s.collected.tx = s.received.tx := by
  rcases s.collected_cases with ⟨-, he⟩ | ⟨-, he⟩ <;> simp [he]
@[simp] theorem State.collected_rx : s.collected.rx = s.received.rx := by
  rcases s.collected_cases with ⟨-, he⟩ | ⟨-, he⟩ <;> simp [he]
@[simp] theorem State.collected_arrivals : s.collected.arrivals = s.received.arrivals := by
  rcases s.collected_cases with ⟨-, he⟩ | ⟨-, he⟩ <;> simp [he]
@[simp] theorem State.collected_device : s.collected.device = s.received.device := by
  rcases s.collected_cases with ⟨-, he⟩ | ⟨-, he⟩ <;> simp [he]
@[simp] theorem State.collected_dev : s.collected.dev = s.received.dev := by
  rcases s.collected_cases with ⟨-, he⟩ | ⟨-, he⟩ <;> simp [he]
@[simp] theorem State.collected_freeReads : s.collected.freeReads = s.received.freeReads := by
  rcases s.collected_cases with ⟨-, he⟩ | ⟨-, he⟩ <;> simp [he]
@[simp] theorem State.collected_out : s.collected.out = s.received.out := by
  rcases s.collected_cases with ⟨-, he⟩ | ⟨-, he⟩ <;> simp [he]
@[simp] theorem State.collected_snapshot : s.collected.snapshot = s.received.snapshot := by
  rcases s.collected_cases with ⟨-, he⟩ | ⟨-, he⟩ <;> simp [he]
@[simp] theorem State.collected_host : s.collected.host = s.received.host := by
  rcases s.collected_cases with ⟨-, he⟩ | ⟨-, he⟩ <;> simp [he]

/-- A transaction ends in `Idle`. -/
@[simp] theorem State.transaction_seq (w : CmdWord) : (s.transaction w).seq = .idle := rfl

@[simp] theorem State.transaction_cfg (w : CmdWord) : (s.transaction w).cfg = s.cfg := by simp [State.transaction]
@[simp] theorem State.transaction_req (w : CmdWord) : (s.transaction w).req = requestOf w := by simp [State.transaction]
@[simp] theorem State.transaction_txbuf (w : CmdWord) : (s.transaction w).txbuf = requestFrame s.cfg.slave (requestOf w) := by simp [State.transaction]
@[simp] theorem State.transaction_explen (w : CmdWord) : (s.transaction w).explen = expectedLength (requestOf w).k (requestOf w).b := by simp [State.transaction]
@[simp] theorem State.transaction_prog (w : CmdWord) : (s.transaction w).prog = s.prog := by simp [State.transaction]
@[simp] theorem State.transaction_tx (w : CmdWord) : (s.transaction w).tx = s.tx ++ [requestFrame s.cfg.slave (requestOf w)] := by simp [State.transaction]
@[simp] theorem State.transaction_device (w : CmdWord) : (s.transaction w).device = s.device := by simp [State.transaction]
@[simp] theorem State.transaction_out (w : CmdWord) : (s.transaction w).out = s.out := by simp [State.transaction]
@[simp] theorem State.transaction_snapshot (w : CmdWord) : (s.transaction w).snapshot = s.snapshot := by simp [State.transaction]
@[simp] theorem State.transaction_host (w : CmdWord) : (s.transaction w).host = s.host := by simp [State.transaction]

/-- A transaction delivers its one result. -/
theorem State.transaction_result (w : CmdWord) :
    ∃ r, (s.transaction w).result = some r ∧ (s.transaction w).res = s.res ++ [r] :=
  ⟨collectedResult (s.issued w).turnedAround, by simp [State.transaction], by simp [State.transaction]⟩

theorem State.transaction_wf (w : CmdWord) (h : s.dev.wf = true) : (s.transaction w).dev.wf = true := by
  simpa [State.transaction] using s.issued_wf w h

/-! ### The Reconciler's side plays no part in a transaction -/

theorem deviceReceive_withHost (p : Option (List CmdWord)) (bs : List Byte) :
    deviceReceive bs { s with host := p } = { deviceReceive bs s with host := p } := by
  unfold deviceReceive conformingReceive conformingRequest
  cases s with
  | mk => dsimp only; (repeat' split) <;> rfl

theorem State.issued_withHost (p : Option (List CmdWord)) (w : CmdWord) :
    State.issued { s with host := p } w = { s.issued w with host := p } :=
  deviceReceive_withHost
    { s.latched (requestOf w) with tx := s.tx ++ [requestFrame s.cfg.slave (requestOf w)] } p
    (requestFrame s.cfg.slave (requestOf w))

theorem afterAnswer_withHost (p : Option (List CmdWord)) (n : Nat) :
    afterAnswer n { s with host := p } = { afterAnswer n s with host := p } := by
  unfold afterAnswer
  cases s with
  | mk => dsimp only; split <;> rfl

theorem State.collected_withHost (p : Option (List CmdWord)) :
    State.collected { s with host := p } = { s.collected with host := p } := by
  have ha := afterAnswer_withHost s p s.explen
  have hb : answer s.explen { s with host := p } = answer s.explen s := rfl
  unfold State.collected State.received
  dsimp only
  rw [ha, hb]
  split
  · rfl
  · cases decodeFor s.req (answer s.explen s) <;> rfl

theorem State.turnedAround_withHost (p : Option (List CmdWord)) :
    State.turnedAround { s with host := p } = { s.turnedAround with host := p } := by
  rw [State.turnedAround_eq, State.turnedAround_eq]

/-- A transaction does the same whatever the Reconciler has still to do. -/
theorem State.transaction_withHost (p : Option (List CmdWord)) (w : CmdWord) :
    State.transaction { s with host := p } w = { s.transaction w with host := p } := by
  unfold State.transaction
  rw [State.issued_withHost, State.turnedAround_withHost, State.collected_withHost]
  rfl

theorem State.transactions_withHost (p : Option (List CmdWord)) (ws : List CmdWord) :
    State.transactions { s with host := p } ws = { s.transactions ws with host := p } := by
  induction ws generalizing s with
  | nil => rfl
  | cons w ws ih => simp only [State.transactions]; rw [State.transaction_withHost, ih]

@[simp] theorem State.transactions_prog (ws : List CmdWord) : (s.transactions ws).prog = s.prog := by
  induction ws generalizing s with
  | nil => rfl
  | cons w ws ih => rw [State.transactions, ih]; simp

@[simp] theorem State.transactions_cfg (ws : List CmdWord) : (s.transactions ws).cfg = s.cfg := by
  induction ws generalizing s with
  | nil => rfl
  | cons w ws ih => rw [State.transactions, ih]; simp

@[simp] theorem State.transactions_host (ws : List CmdWord) : (s.transactions ws).host = s.host := by
  induction ws generalizing s with
  | nil => rfl
  | cons w ws ih => rw [State.transactions, ih]; simp

theorem State.transactions_seq (ws : List CmdWord) (h : s.seq = .idle) : (s.transactions ws).seq = .idle := by
  induction ws generalizing s with
  | nil => exact h
  | cons w ws ih => exact ih _ rfl
end Sys2Proof.Machine
end

