-- ==== Sys2Proof/Laws/PerInstr.lean ====
section
/-! SUPPORT. Per instruction: the form its encoding has on the wire. -/

namespace Sys2Proof.Laws.WireForm

open Machine

/-- A command word; a request of 8 bytes (R71); a response of 8 bytes or of `5 + 2*q` (R64, R65). -/
def Formed : Offer → Prop
  | .cmdWord _ => True
  | .request bs => bs.length = 8
  | .response bs => bs.length = 8 ∨ ∃ q, bs.length = 5 + 2 * q
  | .op _ => False
  | .reset => False
  | .reconcile _ => False
  | .proceed => False

/-- An operation that has an encoding has one of the forms of the table. -/
def Statement (i : Instr) : Prop := ∀ o, encode i = some o → Formed o

theorem reqFc03 (slave : Byte) (start quantity crc : Word) : Statement (.reqFc03 slave start quantity crc) := by
  rintro o ⟨⟩; rfl

theorem reqFc06 (slave : Byte) (address value crc : Word) : Statement (.reqFc06 slave address value crc) := by
  rintro o ⟨⟩; rfl

theorem rspFc06 (slave function : Byte) (address value crc : Word) : Statement (.rspFc06 slave function address value crc) := by
  rintro o ⟨⟩; exact .inl rfl

theorem rspFc03 (slave function byteCount : Byte) (registers : List Word) (crc : Word) : Statement (.rspFc03 slave function byteCount registers crc) := by
  rintro o ⟨⟩
  exact .inr ⟨registers.length, by simp; omega⟩

theorem xferRd (start quantity : Word) : Statement (.xferRd start quantity) := by
  rintro o ⟨⟩; trivial

theorem xferWr (address value : Word) : Statement (.xferWr address value) := by
  rintro o ⟨⟩; trivial

theorem crc16 (bytes : List Byte) : Statement (.crc16 bytes) := by
  rintro o ⟨⟩

theorem crcInit : Statement .crcInit := by
  rintro o ⟨⟩

theorem crcUpd (b : Byte) : Statement (.crcUpd b) := by
  rintro o ⟨⟩

theorem crcGet : Statement .crcGet := by
  rintro o ⟨⟩

theorem encRd (slave : Byte) (start quantity : Word) : Statement (.encRd slave start quantity) := by
  rintro o ⟨⟩

theorem encWr (slave : Byte) (address value : Word) : Statement (.encWr slave address value) := by
  rintro o ⟨⟩

theorem decRd (raw : List Byte) (quantity : Word) : Statement (.decRd raw quantity) := by
  rintro o ⟨⟩

theorem decWr (raw : List Byte) : Statement (.decWr raw) := by
  rintro o ⟨⟩

theorem txWrite (bytes : List Byte) : Statement (.txWrite bytes) := by
  rintro o ⟨⟩

theorem waitTurn : Statement .waitTurn := by
  rintro o ⟨⟩

theorem rxRead (n : Nat) : Statement (.rxRead n) := by
  rintro o ⟨⟩

theorem issue (cmd : CmdWord) : Statement (.issue cmd) := by
  rintro o ⟨⟩

theorem turnaround : Statement .turnaround := by
  rintro o ⟨⟩

theorem collect : Statement .collect := by
  rintro o ⟨⟩

theorem retire : Statement .retire := by
  rintro o ⟨⟩

theorem reconcile (command : Option HostCommand) : Statement (.reconcile command) := by
  rintro o ⟨⟩

end Sys2Proof.Laws.WireForm
end

