-- ==== Sys2Proof/Tests/Slice0.lean ====
section
/-! SUPPORT. Tests: the checks of WellFormed, decoding of words written out from the encodings, one step per operation with
the values of spec/95_test_vectors.md, and a witness for the hypotheses of each statement. -/

namespace Sys2Proof.Tests

set_option Elab.async false

open Machine

/-! ### WellFormed refuses an ill-formed term of each check -/

theorem test_wf_reqFc03_crc : (Instr.reqFc03 1 0x2000 2 0xCBCE).wellFormed = false := by decide +kernel
theorem test_wf_reqFc06_crc : (Instr.reqFc06 1 0x2000 2 0x03CB).wellFormed = false := by decide +kernel
theorem test_wf_rspFc06_crc : (Instr.rspFc06 1 6 0x2000 2 0xCB02).wellFormed = false := by decide +kernel
theorem test_wf_rspFc03_crc : (Instr.rspFc03 1 3 4 [2, 250] 0xDBB0).wellFormed = false := by decide +kernel
/-- The byte count 2 for two registers, with the valid CRC of the frame `01 03 02 00 02 00 FA 53 B0`. -/
theorem test_wf_rspFc03_count : (Instr.rspFc03 1 3 2 [2, 250] 0xB053).wellFormed = false := by decide +kernel
theorem test_wf_decRd_short : (Instr.decRd [0x01, 0x03, 0x04, 0x00, 0x02, 0x00, 0xFA] 2).wellFormed = false := by decide +kernel
theorem test_wf_good : (Instr.reqFc03 1 0x2000 2 0xCBCF).wellFormed = true ∧
    (Instr.rspFc03 1 3 4 [2, 250] 0xB0DB).wellFormed = true := by decide +kernel

/-! ### Decoding, from words written out from the encodings (R62 to R66) -/

theorem test_decode_xferWr : decode (.cmdWord 0b1_0010000000000000_0000000000000010#33) = .instr (.xferWr 0x2000 2) := by
  decide +kernel
theorem test_decode_xferRd : decode (.cmdWord 0b0_0010000000000000_0000000000000010#33) = .instr (.xferRd 0x2000 2) := by
  decide +kernel
theorem test_decode_reqFc03 :
    decode (.request [0b00000001, 0b00000011, 0x20, 0x00, 0x00, 0x02, 0xCF, 0xCB]) =
      .instr (.reqFc03 1 0x2000 2 0xCBCF) := by decide +kernel
theorem test_decode_reqFc06 :
    decode (.request [0b00000001, 0b00000110, 0x20, 0x01, 0x00, 0xFA, 0x53, 0x89]) =
      .instr (.reqFc06 1 0x2001 250 0x8953) := by decide +kernel
theorem test_decode_rspFc06 :
    decode (.response [0x01, 0x06, 0x99, 0x99, 0x77, 0x77, 0x10, 0xAF]) =
      .instr (.rspFc06 1 6 0x9999 0x7777 0xAF10) := by decide +kernel
theorem test_decode_rspFc03 :
    decode (.response [0x01, 0x03, 0x04, 0x00, 0x02, 0x00, 0xFA, 0xDB, 0xB0]) =
      .instr (.rspFc03 1 3 4 [2, 250] 0xB0DB) := by decide +kernel
theorem test_decode_rspFc03_empty :
    decode (.response [0x01, 0x03, 0x00, 0x20, 0xF0]) = .instr (.rspFc03 1 3 0 [] 0xF020) := by decide +kernel
theorem test_decode_unknown_function :
    decode (.request [0x01, 0x10, 0x20, 0x00, 0x00, 0x02, 0x00, 0x00]) = .rejected (.unknownFunction 0x10) := by decide +kernel
theorem test_decode_bad_length : decode (.response [0x01, 0x03]) = .rejected (.badLength 2) := by decide +kernel
theorem test_tableWord_xferWr : decodeTableWord 40 0x120000002 = some (.xferWr 0x2000 2) := by decide +kernel
theorem test_tableWord_reqFc03 :
    decodeTableWord 64 0x010320000002CFCB = some (.reqFc03 1 0x2000 2 0xCBCF) := by decide +kernel
theorem test_tableWord_reqFc06 :
    decodeTableWord 64 0x0106200100FA5389 = some (.reqFc06 1 0x2001 250 0x8953) := by decide +kernel
theorem test_tableWord_rspFc06 :
    decodeTableWord 64 0x0186200100FA5389 = some (.rspFc06 1 0x86 0x2001 250 0x8953) := by decide +kernel

/-! ### One operation at a time -/

/-- The state an outcome goes on to. -/
def after (r : Result) (s : State) : State :=
  match r with
  | .next t => t
  | .fault _ => s
  | .refused _ => s

/-- The outcome is a next state. -/
def goesOn (r : Result) : Bool :=
  match r with
  | .next _ => true
  | .fault _ => false
  | .refused _ => false

/-- The state after an operation. -/
def run (i : Instr) (s : State) : State := after (exec i s) s

/-- A state after reset with what arrives while the reads to come wait. -/
def withBursts (bs : List (List Byte)) : State := { State.reset with arrivals := bs }

/-- A state after reset with the conforming slave behind the adapter, mode 1 and frequency 0. -/
def withSlave : State := { State.reset with device := .conforming, dev := writeRegister [] 0x2000 1 }

/-- A state after reset with the silent slave behind the adapter. -/
def withSilence : State := { State.reset with device := .silent }

/-- The valid answer to a read of two registers (95_test_vectors.md section 4.1). -/
def goodRead : List Byte := [0x01, 0x03, 0x04, 0x00, 0x02, 0x00, 0xFA, 0xDB, 0xB0]

/-- The command word `XFER.RD 0x2000, 2` (program P1). -/
def readWord : CmdWord := 0x020000002

/-- The command word `XFER.WR 0x2000, 2` (program P1). -/
def writeWord : CmdWord := 0x120000002

theorem test_shift1 : shift1 0xFFFF = 0xDFFE ∧ shift1 0x8000 = 0x4000 ∧ shift1 0xA001 = 0xF001 := by decide +kernel
theorem test_crcInit : (run .crcInit { State.reset with acc := 0 }).acc = 0xFFFF := by decide +kernel
theorem test_crcUpd : (run (.crcUpd 0x01) State.reset).acc = 0x807E := by decide +kernel
theorem test_crcGet : (run .crcGet { State.reset with acc := 0xCBCF }).out = some (.crc 0xCBCF) := by decide +kernel
theorem test_crc16 : (run (.crc16 [0x31, 0x32, 0x33, 0x34, 0x35, 0x36, 0x37, 0x38, 0x39]) State.reset).out = some (.crc 0x4B37) := by
  decide +kernel
theorem test_crc16_empty : (run (.crc16 []) State.reset).out = some (.crc 0xFFFF) := by decide +kernel
theorem test_crcTable : crcUpdTable 0xFFFF 0x01 = 0x807E := by decide +kernel
theorem test_encRd :
    (run (.encRd 17 0x2000 2) State.reset).out = some (.frame [0x11, 0x03, 0x20, 0x00, 0x00, 0x02, 0xCD, 0x5B]) := by decide +kernel
theorem test_encWr :
    (run (.encWr 1 0x1234 0xABCD) State.reset).out = some (.frame [0x01, 0x06, 0x12, 0x34, 0xAB, 0xCD, 0x73, 0xD9]) := by
  decide +kernel
theorem test_decRd : (run (.decRd goodRead 2) State.reset).out = some (.decoded (.readOk [2, 250])) := by decide +kernel
theorem test_decRd_order :
    (run (.decRd [0x01, 0x03, 0x02, 0x00, 0x02, 0x00, 0xFA, 0x53, 0xB1] 2) State.reset).out =
      some (.decoded (.failed .crcMismatch)) := by decide +kernel
theorem test_decWr_lenient :
    (run (.decWr [0x01, 0x06, 0x99, 0x99, 0x77, 0x77, 0x10, 0xAF]) State.reset).out = some (.decoded .writeOk) := by decide +kernel
theorem test_decWr_length :
    (run (.decWr [0x01, 0x06, 0x20, 0x00, 0x00, 0x02, 0x03]) State.reset).out = some (.decoded (.failed .timeout)) := by
  decide +kernel
theorem test_txWrite : (run (.txWrite [0xAA, 0x55]) State.reset).tx = [[0xAA, 0x55]] := by decide +kernel
theorem test_waitTurn : (run .waitTurn { State.reset with seq := .sent }).seq = .awaitingResponse := by decide +kernel
theorem test_rxRead : (run (.rxRead 2) { withBursts [[3]] with rx := [1] }).out = some (.bytes [1, 3]) := by decide +kernel
theorem test_rxRead_rest : (run (.rxRead 2) (withBursts [[1, 2, 3], [4]])).rx = [3] ∧
    (run (.rxRead 2) (withBursts [[1, 2, 3], [4]])).arrivals = [[4]] := by decide +kernel
theorem test_reqFc06 :
    readRegister (run (.reqFc06 1 0x2001 250 0x8953) withSlave).dev 0x2001 = 250 := by decide +kernel
theorem test_reqFc03 :
    (run (.reqFc03 1 0x2000 2 0xCBCF) { withSlave with dev := writeRegister (writeRegister [] 0x2000 2) 0x2001 250 }).rx =
      goodRead := by decide +kernel
theorem test_rspFc06 :
    (run (.rspFc06 1 6 0x2000 2 0xCB03) { State.reset with rx := [7] }).rx =
      [7, 0x01, 0x06, 0x20, 0x00, 0x00, 0x02, 0x03, 0xCB] := by decide +kernel
theorem test_rspFc03 : (run (.rspFc03 1 3 4 [2, 250] 0xB0DB) State.reset).rx = goodRead := by decide +kernel
theorem test_issue : (run (.issue writeWord) State.reset).tx = [[0x01, 0x06, 0x20, 0x00, 0x00, 0x02, 0x03, 0xCB]] ∧
    (run (.issue writeWord) State.reset).seq = .sent := by decide +kernel
theorem test_turnaround : (run .turnaround { State.reset with seq := .sent }).seq = .awaitingResponse := by decide +kernel
theorem test_collect_timeout :
    (run .collect { withBursts [[0x01, 0x83, 0x02, 0xC0, 0xF1]] with
      seq := .awaitingResponse, explen := 9, req := ⟨.readHoldingRegisters, 0x2000, 2⟩ }).result =
        some (.failed .timeout) := by decide +kernel
theorem test_collect_read :
    (run .collect { withBursts [goodRead] with
      seq := .awaitingResponse, explen := 9, req := ⟨.readHoldingRegisters, 0x2000, 2⟩ }).result =
        some (.readOk [2, 250]) := by decide +kernel
theorem test_retire : (run .retire { State.reset with seq := .failed, result := some (.failed .timeout) }).res =
    [.failed .timeout] := by decide +kernel
theorem test_xferRd : (run (.xferRd 0x2000 2) (withBursts [goodRead])).res = [.readOk [2, 250]] := by decide +kernel
/-- The hazard of R258: a late echo of the write before is taken for the answer. -/
theorem test_xferWr_late : (run (.xferWr 0x2001 250) (withBursts [[0x01, 0x06, 0x20, 0x00, 0x00, 0x02, 0x03, 0xCB]])).res =
    [.writeOk] := by decide +kernel
/-- Program P1. -/
theorem test_reconcile : (run (.reconcile (some ⟨.run, 250⟩)) withSlave).snapshot = some ⟨.named .run, 250⟩ := by decide +kernel
/-- Program P2. -/
theorem test_reconcile_silent : (run (.reconcile (some ⟨.forward, 500⟩)) withSilence).snapshot =
    some ⟨.named .stop, 0⟩ := by decide +kernel
theorem test_inboundMode : inboundMode (some "reverse") = .reverse ∧ inboundMode (some "RUN") = .stop ∧
    inboundMode none = .stop := by decide +kernel
theorem test_session_violation :
    sessionCommand (some ⟨some "run", .absent⟩) = .error .callerContractViolation := by rfl

/-! ### The step -/

theorem test_step_command : goesOn (step (State.reset.withFetchWord 40 0x120000002)) = true := by rfl
theorem test_step_request : goesOn (step (State.reset.withFetchWord 64 0x0106200100FA5389)) = true := by rfl
theorem test_step_response : (after (step (State.reset.withFetchWord 64 0x0186200100FA5389)) State.reset).rx =
    [0x01, 0x86, 0x20, 0x01, 0x00, 0xFA, 0x53, 0x89] := by decide +kernel
theorem test_step_idle : step State.reset = .next State.reset := by rfl
theorem test_step_waits : (after (step { State.reset with seq := .sent, prog := [.cmdWord readWord] }) State.reset).prog =
    [.cmdWord readWord] := by decide +kernel
theorem test_step_exclusive : step { State.reset with prog := [.op .waitTurn] } = .refused .adapterExclusive := by rfl

/-- The outcome of some steps of the machine. -/
def steps (n : Nat) (s : State) : State := after (core.run n s) s

/-- Bytes that come in the pause, in two parts, are both available to the read that follows (R176). -/
theorem test_pause : (steps 7 { State.reset with
    arrivals := [[]], prog := [.op (.issue readWord), .response [0x01, 0x03, 0x04], .proceed,
      .response [0x00, 0x02, 0x00, 0xFA, 0xDB, 0xB0], .proceed, .proceed] }).res = [.readOk [2, 250]] := by decide +kernel
/-- A late echo comes between two transactions of a `RECONCILE` (R58, R258, program P6). -/
theorem test_reconcile_interleaved : (steps 15 { State.reset with
    arrivals := [[], [], goodRead], prog := [.reconcile (some ⟨.run, 250⟩), .proceed, .proceed, .proceed, .proceed,
      .response [0x01, 0x06, 0x20, 0x00, 0x00, 0x02, 0x03, 0xCB]] }).res =
    [.failed .timeout, .writeOk, .readOk [2, 250]] := by decide +kernel
theorem test_final : { State.reset with prog := [.response [7], .reset] }.final = true ∧
    { State.reset with prog := [.cmdWord readWord] }.final = false ∧ { State.reset with seq := .sent }.final = false := by
  decide +kernel

/-! ### Witnesses: for each statement with hypotheses, operands and a state that meet them all -/

/-- A state in which the answer to a read is awaited. -/
def awaiting : State :=
  { withBursts [goodRead] with seq := .awaitingResponse, explen := 9, req := ⟨.readHoldingRegisters, 0x2000, 2⟩ }

theorem witness_CrcRoundTrip : ∃ b raw : List Byte, raw = b ++ [lo8 (crc16 b), hi8 (crc16 b)] := ⟨[], _, rfl⟩
theorem witness_OneByteErrorFound : ∃ raw : List Byte,
    2 ≤ raw.length ∧ crcOk raw = true ∧ 8 < raw.length ∧ byteAt raw 8 ≠ 0xB1 ∧ 5 + 2 * (2 : Word).toNat ≤ raw.length :=
  ⟨goodRead, by decide +kernel⟩
theorem witness_OneByteErrorFound_write : ∃ raw : List Byte,
    2 ≤ raw.length ∧ crcOk raw = true ∧ 0 < raw.length ∧ byteAt raw 0 ≠ 0xFF ∧ raw.length = 8 :=
  ⟨encodeWrite 1 0x2000 2, by decide +kernel⟩
theorem witness_AccumulatorIsScratch : (run (.decRd goodRead 2) State.reset).acc = 0xB0DB ∧
    (run (.encRd 1 0x2000 2) State.reset).acc = 0xCBCF ∧ (run (.encWr 1 0x2000 2) State.reset).acc = 0xCB03 ∧
    goesOn (exec (.decWr []) State.reset) = true := by decide +kernel
theorem witness_AccumulatorIsScratch_collect : goesOn (exec .collect { awaiting with arrivals := [[]] }) = true ∧
    (run .collect { awaiting with arrivals := [[]] }).rxlen < (run .collect { awaiting with arrivals := [[]] }).explen := by decide +kernel
theorem witness_FrameDeterminesOperands : encodeRead 1 0x2000 2 = encodeRead 1 0x2000 2 ∧
    encodeWrite 1 0x2000 2 = encodeWrite 1 0x2000 2 := by decide +kernel
theorem witness_ReadResponseDecodes : (List.replicate 127 (0 : Word)).length ≤ 127 := by decide +kernel
theorem witness_ContentNotExamined : ([] : List Word).length ≤ 127 := by decide +kernel
theorem witness_DecRdEffect_mismatch : ∃ raw : List Byte, 5 + 2 * (2 : Word).toNat ≤ raw.length ∧
    crc16 (raw.take (raw.length - 2)) ≠ be16 (byteAt raw (raw.length - 1)) (byteAt raw (raw.length - 2)) :=
  ⟨[0x01, 0x03, 0x04, 0x00, 0x02, 0x00, 0xFA, 0xB0, 0xDB], by decide +kernel⟩
theorem witness_DecRdEffect_count : ∃ raw : List Byte, 5 + 2 * (2 : Word).toNat ≤ raw.length ∧
    crc16 (raw.take (raw.length - 2)) = be16 (byteAt raw (raw.length - 1)) (byteAt raw (raw.length - 2)) ∧
    (byteAt raw 2).toNat ≠ 2 * (2 : Word).toNat :=
  ⟨[0x01, 0x03, 0x02, 0x00, 0x02, 0x00, 0xFA, 0x53, 0xB0], by decide +kernel⟩
theorem witness_DecRdEffect_good : ∃ raw : List Byte, 5 + 2 * (2 : Word).toNat ≤ raw.length ∧
    crc16 (raw.take (raw.length - 2)) = be16 (byteAt raw (raw.length - 1)) (byteAt raw (raw.length - 2)) ∧
    (byteAt raw 2).toNat = 2 * (2 : Word).toNat :=
  ⟨goodRead, by decide +kernel⟩
theorem witness_DecRdEffect_zero : ∃ raw : List Byte, 5 + 2 * (0 : Word).toNat ≤ raw.length ∧
    crc16 (raw.take (raw.length - 2)) = be16 (byteAt raw (raw.length - 1)) (byteAt raw (raw.length - 2)) ∧
    (byteAt raw 2).toNat = 2 * (0 : Word).toNat :=
  ⟨[0x01, 0x03, 0x00, 0x20, 0xF0], by decide +kernel⟩
theorem witness_DecWrEffect : ([] : List Byte).length ≠ 8 ∧ (encodeWrite 1 0 0).length = 8 ∧
    crc16 ((encodeWrite 1 0 0).take 6) = be16 (byteAt (encodeWrite 1 0 0) 7) (byteAt (encodeWrite 1 0 0) 6) ∧
    (List.replicate 8 (0 : Byte)).length = 8 ∧
    crc16 ((List.replicate 8 (0 : Byte)).take 6) ≠
      be16 (byteAt (List.replicate 8 0) 7) (byteAt (List.replicate 8 0) 6) := by decide +kernel
theorem witness_LargeReadNeverOk : 128 ≤ (128 : Word).toNat ∧
    5 + 2 * (128 : Word).toNat ≤ (List.replicate 261 (0 : Byte)).length := by decide +kernel
theorem witness_DecoderGuarantees : exec (.decRd goodRead 2) State.reset = .next (run (.decRd goodRead 2) State.reset) ∧
    (run (.decRd goodRead 2) State.reset).out = some (.decoded (.readOk [2, 250])) :=
  ⟨by rfl, by decide +kernel⟩
theorem witness_DecoderGuarantees_write :
    exec (.decWr (encodeWrite 1 0x2000 2)) State.reset = .next (run (.decWr (encodeWrite 1 0x2000 2)) State.reset) ∧
    (run (.decWr (encodeWrite 1 0x2000 2)) State.reset).out = some (.decoded .writeOk) :=
  ⟨by rfl, by decide +kernel⟩
theorem witness_WriteEcho : 7 < 8 ∧ byteAt (encodeWrite 1 0x2000 2) 7 ≠ 0xCA := by decide +kernel
theorem witness_TxWriteEffect : State.reset.device ≠ .conforming ∧ withSlave.device = .conforming ∧
    withSlave.dev.wf = true ∧ encodeWrite 1 0xFFFF 2 = encodeWrite withSlave.cfg.slave 0xFFFF 2 := by decide +kernel
theorem witness_TxWriteEffect_other (a v : Word) : ([] : List Byte) ≠ encodeWrite withSlave.cfg.slave a v := by
  intro h
  have := congrArg List.length h
  simp [encodeWrite, sealFrame, writeRequestBody, fieldsBody] at this
theorem witness_TurnaroundEffect : { State.reset with seq := .sent }.seq = .sent ∧ State.reset.seq ≠ .sent := by decide +kernel
theorem witness_RxReadEffect : goodRead.length ≤ 9 ∧ (withBursts [goodRead]).device ≠ .silent ∧
    (withBursts [goodRead]).rx = [] ∧ (withBursts [goodRead]).arrivals = [goodRead] := by decide +kernel
theorem witness_ReqFc06Store : withSlave.device = .conforming ∧ withSlave.dev.wf = true := by decide +kernel
theorem witness_ReqFc06Store_other : (0 : Nat) ≠ 2 * (0x2000 : Word).toNat ∧ (0 : Nat) ≠ 2 * (0x2000 : Word).toNat + 1 := by
  decide +kernel
theorem witness_ReqFc03Answer : withSlave.device = .conforming ∧ (127 : Word).toNat ≤ 127 ∧
    126 < (127 : Word).toNat ∧ (0xFF81 : Word).toNat + 126 ≤ 0xFFFF := by decide +kernel
theorem witness_ReqIgnored : State.reset.device ≠ .conforming ∧ (2 : Byte) ≠ withSlave.cfg.slave ∧
    (0 : Word) ≠ crc16 (fieldsBody 1 fcRead 0 0) ∧ (0 : Word) ≠ crc16 (fieldsBody 1 fcWrite 0 0) := by decide +kernel
theorem witness_SilentSlave : withSilence.device = .silent ∧ withSilence.seq = .idle ∧ withSilence.cfg.legal = true := by
  decide +kernel
theorem witness_IssueEffect : withSlave.seq = .idle ∧ 1 ≤ withSlave.cfg.slave.toNat ∧ withSlave.cfg.slave.toNat ≤ 247 := by decide +kernel
theorem witness_CommandHeld : { State.reset with seq := .failed, prog := [.cmdWord 0] }.seq ≠ .idle ∧
    { State.reset with seq := .failed, prog := [.cmdWord 0] }.prog = [.cmdWord 0] ∧
    goesOn (step { State.reset with seq := .failed, prog := [.cmdWord 0] }) = true := by decide +kernel
theorem witness_RefusedOutsideContract : State.reset.seq = .idle ∧
    ({ State.reset with cfg := { State.reset.cfg with slave := 248 } }.cfg.slave.toNat = 0 ∨
      248 ≤ { State.reset with cfg := { State.reset.cfg with slave := 248 } }.cfg.slave.toNat) := by decide +kernel
theorem witness_CollectEffect : awaiting.seq = .awaitingResponse ∧
    awaiting.explen = expectedLength awaiting.req.k awaiting.req.b ∧ awaiting.req.k = .readHoldingRegisters ∧
    (answer awaiting.explen awaiting).length = awaiting.explen ∧
    (answer awaiting.explen { awaiting with arrivals := [[]] }).length < awaiting.explen := by decide +kernel
/-- A state in which the echo of a write is awaited. -/
def awaitingEcho : State :=
  { withBursts [encodeWrite 1 0x2000 2] with
    seq := .awaitingResponse, explen := 8, req := ⟨.writeSingleRegister, 0x2000, 2⟩ }
theorem witness_CollectEffect_write : awaitingEcho.seq = .awaitingResponse ∧
    awaitingEcho.explen = expectedLength awaitingEcho.req.k awaitingEcho.req.b ∧
    awaitingEcho.req.k = .writeSingleRegister ∧
    (answer awaitingEcho.explen awaitingEcho).length = awaitingEcho.explen := by decide +kernel
theorem witness_RetireEffect : (run .collect awaiting).seq = .decoded ∧
    (run .collect awaiting).result = some (.readOk [2, 250]) := by decide +kernel
/-- The premises of every statement about an accepted command. -/
theorem witness_XferRdEffect : State.reset.seq = .idle ∧ State.reset.cfg.legal = true := by decide +kernel
theorem witness_XferWrEffect : withSlave.seq = .idle ∧ withSlave.cfg.legal = true := by decide +kernel
theorem witness_CommandIsFourSteps : withSilence.seq = .idle ∧ withSilence.cfg.legal = true := by decide +kernel
theorem witness_TransactionTerminates : { State.reset with prog := [.op (.issue readWord)] }.seq = .idle ∧
    { State.reset with prog := [.op (.issue readWord)] }.host = none ∧
    { State.reset with prog := [.op (.issue readWord)] }.cfg.legal = true ∧
    { State.reset with prog := [.op (.issue readWord)] }.prog = [.op (.issue readWord)] := by decide +kernel
theorem witness_SeqTransitions : exec (.issue readWord) State.reset = .next (run (.issue readWord) State.reset) := by rfl
theorem witness_StaleStateIrrelevant : withSilence.seq = .idle ∧ goesOn (exec (decodeCmd readWord) withSilence) = true := by
  decide +kernel
theorem witness_DelaysIrrelevant : exec (.issue writeWord) State.reset = .next (run (.issue writeWord) State.reset) := by rfl
theorem witness_NothingRewritten : step State.reset = .next State.reset := by rfl
theorem witness_UnitFrame : exec (.crcUpd 1) State.reset = .next (run (.crcUpd 1) State.reset) := by rfl
theorem witness_StepRunsDecoded : decode (.cmdWord readWord) = .instr (decodeCmd readWord) ∧
    admission (decodeCmd readWord) State.reset = .run ∧
    admission (decodeCmd readWord) { State.reset with seq := .sent } = .wait ∧ admission .waitTurn State.reset = .deny ∧
    mover (decodeCmd readWord) = .host ∧ mover .collect = .sequencer ∧ State.reset.prog = [] := by decide +kernel
theorem witness_StepRunsDecoded_bytes : decode (.request [1]) = .rejected (.badLength 1) ∧
    decode (.response [1, 2, 3]) = .rejected (.badLength 3) := by decide +kernel
theorem witness_FetchedCommandRuns : State.reset.seq = .idle ∧ State.reset.host = none := by decide +kernel
theorem witness_DecodeEncode : encode (.xferRd 0x2000 2) = some (.cmdWord readWord) ∧
    encode (.rspFc03 1 3 4 [2, 250] 0xB0DB) = some (.response goodRead) := by decide +kernel
theorem witness_EncodeDecode : decode (.response goodRead) = .instr (.rspFc03 1 3 4 [2, 250] 0xB0DB) := by decide +kernel
theorem witness_StepKeepsInv : Inv State.reset ∧ step State.reset = .next State.reset :=
  ⟨by constructor <;> simp [State.reset, Memory.wf, wfFrom], by rfl⟩
theorem witness_SafeStepGoesOn : Safe { State.reset with prog := [.cmdWord readWord, .response [1, 2, 3]] } :=
  ⟨by constructor <;> simp [State.reset, Memory.wf, wfFrom], by decide +kernel, by simp [Offer.admissible]⟩
theorem witness_ResetAbandons : { State.reset with seq := .sent, prog := [.reset] }.prog = .reset :: [] := by decide +kernel
/-- A state in which a write has failed. -/
def failedWrite : State :=
  { State.reset with
    seq := .failed
    result := some (.failed .timeout)
    explen := 8
    req := ⟨.writeSingleRegister, 0, 0⟩
    txbuf := encodeWrite 1 0 0 }
theorem witness_StatusFields : Inv failedWrite := by
  constructor <;> simp [failedWrite, State.reset, Memory.wf, wfFrom, expectedLength, requestFrame, Config.resetSlave]
theorem witness_StatusFields_kind : failedWrite.seq = .failed ∧ failedWrite.result = some (.failed .timeout) := by
  decide +kernel
theorem witness_ReconcileEffect : withSlave.seq = .idle ∧ withSlave.cfg.legal = true ∧ (0 : Int) ≤ 500 ∧
    (500 : Int) ≤ 500 ∧ ((-1 : Int) < 0 ∨ 500 < (-1 : Int)) := by decide +kernel
theorem witness_ReconcileCounts : withSlave.seq = .idle ∧ withSlave.cfg.legal = true ∧
    ((501 : Int) < 0 ∨ 500 < (501 : Int)) ∧ (0 : Int) ≤ 0 ∧ (0 : Int) ≤ 500 := by decide +kernel
theorem witness_ReconcileStepwise : withSlave.seq = .idle ∧ withSlave.host = none ∧ withSlave.cfg.legal = true ∧
    { withSlave with prog := [.reconcile none] }.prog = [.reconcile none] ∧
    (withSlave.entered none).host = some [readWord] ∧ { withSlave with host := some [] }.host = some [] := by decide +kernel
theorem witness_ReadFailureFallback : withSilence.seq = .idle ∧ withSilence.cfg.legal = true ∧ withSilence.device = .silent ∧
    (run (.reconcile none) withSilence).res.getLast? = some (.failed .timeout) := by decide +kernel
theorem witness_EndToEnd : withSlave.seq = .idle ∧ withSlave.cfg.legal = true ∧ withSlave.device = .conforming ∧
    withSlave.dev.wf = true ∧ (0 : Int) ≤ 500 ∧ (500 : Int) ≤ 500 := by decide +kernel
theorem witness_ModeBijection : (16 : Word) ≠ 1 ∧ (16 : Word) ≠ 2 ∧ (16 : Word) ≠ 4 ∧ (16 : Word) ≠ 8 := by decide +kernel

end Sys2Proof.Tests
end

section
/-! SUPPORT. The two durations of the configuration (00_scope.md section 5, R8): every operation of the block commutes with
changing them. -/

namespace Sys2Proof.Machine

/-- The state with another turnaround delay and another read timeout. -/
def State.withDelays (d r : Word) (s : State) : State :=
  { s with cfg := { s.cfg with turnaroundDelay := d, readTimeout := r } }

/-- An outcome with its state changed; a stop stays the stop that it is. -/
def mapNext (f : State → State) : Result → Result
  | .next s => .next (f s)
  | .fault e => .fault e
  | .refused e => .refused e

@[simp] theorem mapNext_next (f : State → State) (s : State) : mapNext f (.next s) = .next (f s) := rfl
@[simp] theorem mapNext_fault (f : State → State) (e : Fault) : mapNext f (.fault e) = .fault e := rfl
@[simp] theorem mapNext_refused (f : State → State) (e : Refusal) : mapNext f (.refused e) = .refused e := rfl
@[simp] theorem mapNext_ite (f : State → State) (c : Prop) [Decidable c] (x y : Result) :
    mapNext f (if c then x else y) = if c then mapNext f x else mapNext f y := apply_ite _ c x y

variable (d r : Word) (s : State)

@[simp] theorem State.withDelays_seq : (s.withDelays d r).seq = s.seq := rfl
@[simp] theorem State.withDelays_slave : (s.withDelays d r).cfg.slave = s.cfg.slave := rfl
@[simp] theorem State.withDelays_legal : (s.withDelays d r).cfg.legal = s.cfg.legal := rfl
@[simp] theorem State.withDelays_device : (s.withDelays d r).device = s.device := rfl
@[simp] theorem State.withDelays_req : (s.withDelays d r).req = s.req := rfl
@[simp] theorem State.withDelays_explen : (s.withDelays d r).explen = s.explen := rfl

/-! ### The shared operations -/

@[simp] theorem State.withAcc_withDelays (a : Word) :
    (s.withDelays d r).withAcc a = (s.withAcc a).withDelays d r := rfl

@[simp] theorem State.withOut_withDelays (v : UnitResult) :
    (s.withDelays d r).withOut v = (s.withOut v).withDelays d r := rfl

@[simp] theorem State.hold_withDelays (o : Offer) :
    (s.withDelays d r).hold o = (s.hold o).withDelays d r := rfl

theorem conformingRequest_withDelays (function : Byte) (a b : Word) (bs : List Byte) :
    conformingRequest function a b bs (s.withDelays d r) = (conformingRequest function a b bs s).withDelays d r := by
  unfold conformingRequest
  split
  · rfl
  · split <;> rfl

theorem conformingReceive_withDelays (bs : List Byte) :
    conformingReceive bs (s.withDelays d r) = (conformingReceive bs s).withDelays d r := by
  unfold conformingReceive
  split
  · rw [State.withDelays_slave, conformingRequest_withDelays, apply_ite (State.withDelays d r)]
  · rfl

@[simp] theorem deviceReceive_withDelays (bs : List Byte) :
    deviceReceive bs (s.withDelays d r) = (deviceReceive bs s).withDelays d r := by
  unfold deviceReceive
  rw [State.withDelays_device]
  split
  · rfl
  · exact conformingReceive_withDelays d r s bs
  · rfl

@[simp] theorem arrive_withDelays (bs : List Byte) :
    arrive bs (s.withDelays d r) = (arrive bs s).withDelays d r := rfl

@[simp] theorem emitTx_withDelays (bs : List Byte) :
    emitTx bs (s.withDelays d r) = (emitTx bs s).withDelays d r :=
  deviceReceive_withDelays d r { s with tx := s.tx ++ [bs] } bs

@[simp] theorem answer_withDelays (n : Nat) : answer n (s.withDelays d r) = answer n s :=
  answer_congr n rfl rfl rfl rfl

@[simp] theorem afterAnswer_withDelays (n : Nat) :
    afterAnswer n (s.withDelays d r) = (afterAnswer n s).withDelays d r := by
  unfold afterAnswer
  rw [State.withDelays_device]
  split <;> rfl

@[simp] theorem State.finish_withDelays (x : TransactionResult) :
    (s.withDelays d r).finish x = (s.finish x).withDelays d r := by
  cases x <;> rfl

/-! ### The steps of the sequencer, a transaction, `RECONCILE` -/

@[simp] theorem State.issued_withDelays (w : CmdWord) :
    (s.withDelays d r).issued w = (s.issued w).withDelays d r :=
  emitTx_withDelays d r (s.latched (requestOf w)) (requestFrame s.cfg.slave (requestOf w))

@[simp] theorem State.turnedAround_withDelays :
    (s.withDelays d r).turnedAround = s.turnedAround.withDelays d r := by
  rw [State.turnedAround_eq, State.turnedAround_eq]
  rfl

theorem State.received_withDelays : (s.withDelays d r).received = s.received.withDelays d r := by
  simp only [State.received, State.withDelays_explen, afterAnswer_withDelays, answer_withDelays]
  rfl

@[simp] theorem State.collected_withDelays : (s.withDelays d r).collected = s.collected.withDelays d r := by
  unfold State.collected
  rw [State.received_withDelays, answer_withDelays, apply_ite (State.withDelays d r), ← State.finish_withDelays]
  rfl

theorem State.collectDefined_withDelays : (s.withDelays d r).collectDefined = s.collectDefined := by
  simp only [State.collectDefined, State.withDelays_req, State.withDelays_explen, answer_withDelays]
  rfl

@[simp] theorem State.retired_withDelays : (s.withDelays d r).retired = s.retired.withDelays d r := rfl

@[simp] theorem State.transaction_withDelays (w : CmdWord) :
    (s.withDelays d r).transaction w = (s.transaction w).withDelays d r := by
  simp [State.transaction]

theorem State.transactions_withDelays (ws : List CmdWord) :
    (s.withDelays d r).transactions ws = (s.transactions ws).withDelays d r := by
  induction ws generalizing s with
  | nil => rfl
  | cons w ws ih => rw [State.transactions, State.transactions, State.transaction_withDelays, ih]

theorem State.reconciled_withDelays (c : Option HostCommand) :
    (s.withDelays d r).reconciled c = (s.reconciled c).withDelays d r := by
  simp only [State.reconciled, State.transactions_withDelays]
  rfl

/-! ### The operations -/

theorem transfer_withDelays (w : CmdWord) :
    transfer w (s.withDelays d r) = mapNext (State.withDelays d r) (transfer w s) := by
  simp [transfer]

theorem execIssue_withDelays (w : CmdWord) :
    execIssue w (s.withDelays d r) = mapNext (State.withDelays d r) (execIssue w s) := by
  simp [execIssue]

theorem execTurnaround_withDelays :
    execTurnaround (s.withDelays d r) = mapNext (State.withDelays d r) (execTurnaround s) := by
  simp [execTurnaround]

theorem execCollect_withDelays :
    execCollect (s.withDelays d r) = mapNext (State.withDelays d r) (execCollect s) := by
  simp [execCollect, State.collectDefined_withDelays]

theorem execRetire_withDelays :
    execRetire (s.withDelays d r) = mapNext (State.withDelays d r) (execRetire s) := by
  rw [execRetire, execRetire, mapNext_ite]
  rfl

theorem execDecRd_withDelays (raw : List Byte) (q : Word) :
    execDecRd raw q (s.withDelays d r) = mapNext (State.withDelays d r) (execDecRd raw q s) := by
  simp [execDecRd]

theorem execReconcile_withDelays (c : Option HostCommand) :
    execReconcile c (s.withDelays d r) = mapNext (State.withDelays d r) (execReconcile c s) := by
  simp [execReconcile, State.reconciled_withDelays]

theorem execRxRead_withDelays (n : Nat) :
    execRxRead n (s.withDelays d r) = mapNext (State.withDelays d r) (execRxRead n s) := by
  simp [execRxRead]

/-- Changing the two durations before an operation is changing them after it, stops included: no operation reads or writes
either of them (R8). -/
theorem exec_withDelays (i : Instr) :
    exec i (s.withDelays d r) = mapNext (State.withDelays d r) (exec i s) := by
  cases i with
  | reqFc03 x a b c => exact congrArg Host.Outcome.next (deviceReceive_withDelays d r s _)
  | reqFc06 x a b c => exact congrArg Host.Outcome.next (deviceReceive_withDelays d r s _)
  | rspFc06 x f a b c => rfl
  | rspFc03 x f n vs c => rfl
  | xferRd a b => exact transfer_withDelays d r s _
  | xferWr a b => exact transfer_withDelays d r s _
  | crc16 bs => rfl
  | crcInit => rfl
  | crcUpd b => rfl
  | crcGet => rfl
  | encRd x a b => rfl
  | encWr x a b => rfl
  | decRd raw q => exact execDecRd_withDelays d r s raw q
  | decWr raw => rfl
  | txWrite bs => exact congrArg Host.Outcome.next (emitTx_withDelays d r s bs)
  | waitTurn => exact congrArg Host.Outcome.next (State.turnedAround_withDelays d r s)
  | rxRead n => exact execRxRead_withDelays d r s n
  | issue w => exact execIssue_withDelays d r s w
  | turnaround => exact execTurnaround_withDelays d r s
  | collect => exact execCollect_withDelays d r s
  | retire => exact execRetire_withDelays d r s
  | reconcile c => exact execReconcile_withDelays d r s c

end Sys2Proof.Machine

namespace Sys2Proof

open Machine

/-- Settles O41: every operation commutes with changing the two durations (`exec_withDelays`). -/
theorem delaysIrrelevant : Obligations.DelaysIrrelevant := by
  unfold Obligations.DelaysIrrelevant
  intro d r i s t h
  change exec i (s.withDelays d r) = .next (t.withDelays d r)
  rw [exec_withDelays, h, mapNext_next]

end Sys2Proof
end

section
/-! SUPPORT. One step of the machine (00_scope.md section 4, R6): what it does with the offer at the head of the list, and
which operations are admitted when. -/

namespace Sys2Proof.Machine

variable {s : State} {o : Offer} {rest : List Offer} {i : Instr}

/-! ### The step, by the offer at the head -/

theorem step_of_nil (hp : s.prog = []) : step s = advance s := by
  simp only [step, hp]

theorem step_of_cons (hp : s.prog = o :: rest) : step s = runOffer o rest s := by
  simp only [step, hp]

theorem step_of_run (hd : decode o = .instr i) (hp : s.prog = o :: rest) (ha : admission i s = .run) :
    step s = exec i { s with prog := rest } := by
  simp only [step_of_cons hp, runOffer, hd, ha]

theorem step_of_wait (hd : decode o = .instr i) (hp : s.prog = o :: rest) (ha : admission i s = .wait) :
    step s = advance s := by
  simp only [step_of_cons hp, runOffer, hd, ha]

theorem step_of_deny (hd : decode o = .instr i) (hp : s.prog = o :: rest) (ha : admission i s = .deny) :
    step s = .refused .adapterExclusive := by
  simp only [step_of_cons hp, runOffer, hd, ha]

theorem step_of_rejected {e : DecodeError} (hd : decode o = .rejected e) (hp : s.prog = o :: rest) :
    step s = runOther o rest s := by
  simp only [step_of_cons hp, runOffer, hd]

theorem step_of_reconcile {c : Option HostCommand} (hp : s.prog = .reconcile c :: rest) :
    step s = if s.seq = .idle ∧ s.host = none then .next ({ s with prog := rest }.entered c) else advance s := by
  rw [step_of_rejected (e := .noOperation) rfl hp]
  by_cases h : s.seq = .idle ∧ s.host = none
  · simp only [runOther, hostAdmission, if_pos h]
  · simp only [runOther, hostAdmission, if_neg h]

/-! ### Which operation is admitted -/

theorem mover_eq_primitive_iff :
    mover i = .primitive ↔ (∃ bs, i = .txWrite bs) ∨ i = .waitTurn ∨ ∃ n, i = .rxRead n := by
  cases i <;> simp [mover]

theorem mover_eq_host_iff :
    mover i = .host ↔
      (∃ bs, i = .crc16 bs) ∨ i = .crcInit ∨ (∃ b, i = .crcUpd b) ∨ i = .crcGet ∨ (∃ x a b, i = .encRd x a b) ∨
        (∃ x a b, i = .encWr x a b) ∨ (∃ raw q, i = .decRd raw q) ∨ (∃ raw, i = .decWr raw) ∨
        (∃ a b, i = .xferRd a b) ∨ (∃ a b, i = .xferWr a b) ∨ (∃ w, i = .issue w) ∨ (∃ c, i = .reconcile c) := by
  cases i <;> simp [mover]

theorem admission_of_host (h : mover i = .host) :
    admission i s = if s.seq = .idle ∧ s.host = none then .run else .wait := by
  simp only [admission, h, hostAdmission]

theorem admission_of_sequencer_or_link (h : mover i = .sequencer ∨ mover i = .link) : admission i s = .run := by
  rcases h with h | h <;> simp only [admission, h]

theorem hostAdmission_ne_deny (s : State) : hostAdmission s ≠ .deny := by
  unfold hostAdmission
  split <;> simp

theorem admission_eq_deny_iff : admission i s = .deny ↔ mover i = .primitive := by
  cases h : mover i <;> simp [admission, h, hostAdmission_ne_deny]

end Sys2Proof.Machine

namespace Sys2Proof

open Machine

/-- Settles O44, from what a step does with each kind of offer (`step_of_run` to `step_of_reconcile`) and from the admission
by mover. -/
theorem stepRunsDecoded : Obligations.StepRunsDecoded := by
  unfold Obligations.StepRunsDecoded
  refine ⟨fun s o rest i hd => ⟨step_of_run hd, step_of_wait hd, step_of_deny hd⟩, fun s => step_of_nil, ?_, ?_, ?_⟩
  · intro i s
    exact ⟨admission_of_host, admission_of_sequencer_or_link, admission_eq_deny_iff.trans mover_eq_primitive_iff,
      mover_eq_host_iff.symm⟩
  · intro s rest bs e
    exact ⟨fun hd hp => step_of_rejected hd hp, fun hd hp => step_of_rejected hd hp⟩
  · intro s rest c
    exact ⟨fun hp => step_of_rejected (e := .noOperation) rfl hp, fun hp => step_of_rejected (e := .noOperation) rfl hp,
      fun hp => step_of_reconcile hp⟩

end Sys2Proof
end

section
/-! SUPPORT. What a step is made of (10_state.md sections 1 to 5): every operation, and so every step of the machine, is a
sequence of the moves listed here. What each move keeps every step keeps. -/

namespace Sys2Proof.Machine

/-- One change of the state that an operation is made of. -/
inductive Move : State → State → Prop
  /-- Offers are taken, or put back (R149). -/
  | offers (s : State) (p : List Offer) : Move s { s with prog := p }
  /-- A unit function uses `ACC` as scratch and returns a value (R20). -/
  | unit (s : State) (a : Word) (v : Option UnitResult) : Move s { s with acc := a, out := v }
  /-- Bytes reach the device (R184). -/
  | deviceReceives (s : State) (bs : List Byte) : Move s (deviceReceive bs s)
  /-- Bytes reach the adapter (R183). -/
  | arrives (s : State) (bs : List Byte) : Move s (arrive bs s)
  /-- Bytes are handed to the adapter (R175). -/
  | emits (s : State) (bs : List Byte) : Move s (emitTx bs s)
  /-- The adapter answers a read (R177). -/
  | answers (s : State) (n : Nat) : Move s (afterAnswer n s)
  /-- A command is latched, in `Idle` (R150). -/
  | latches (s : State) (w : CmdWord) (h : s.seq = .idle) : Move s (s.latched (requestOf w))
  /-- The turnaround ends (R151). -/
  | turnsAround (s : State) : Move s s.turnedAround
  /-- The response is collected, in `AwaitingResponse` (R152). -/
  | collects (s : State) (h : s.seq = .awaitingResponse) : Move s s.collected
  /-- The result is delivered, in `Decoded` or `Failed` (R153). -/
  | retires (s : State) (h : s.seq = .decoded ∨ s.seq = .failed) : Move s s.retired
  /-- Reset is applied (R252). -/
  | resets (s : State) : Move s (hardReset s)
  /-- The Reconciler is entered (R199). -/
  | enters (s : State) (c : Option HostCommand) : Move s (s.entered c)
  /-- The Reconciler takes its next command (R199). -/
  | takes (s : State) (w : CmdWord) (ws : List CmdWord) (h : s.host = some (w :: ws)) : Move s { s with host := some ws }
  /-- The Reconciler ends (R196). -/
  | concludes (s : State) : Move s s.concluded
  /-- `RECONCILE` as one operation returns its snapshot (R196). -/
  | returnsSnapshot (s : State) (x : Snapshot) : Move s { s with snapshot := some x }

/-- Moves one after the other. -/
abbrev Moves : State → State → Prop := Relation.ReflTransGen Move

/-- What every move keeps a sequence of moves keeps. -/
theorem Moves.preserves {P : State → Prop} (hP : ∀ {s t}, Move s t → P s → P t) {s t : State} (h : Moves s t) (hs : P s) :
    P t := by
  induction h with
  | refl => exact hs
  | tail _ hm ih => exact hP hm ih

variable {s t : State}

/-! ### A command, a transaction, `RECONCILE` -/

theorem moves_issued (w : CmdWord) (h : s.seq = .idle) : Moves s (s.issued w) :=
  .tail (.single (.latches s w h)) (.emits _ _)

theorem collected_seq_done (s : State) : s.collected.seq = .decoded ∨ s.collected.seq = .failed := by
  rw [State.collected_seq]
  split
  · exact .inl rfl
  · exact .inr rfl

theorem moves_transaction (w : CmdWord) (h : s.seq = .idle) : Moves s (s.transaction w) := by
  have hi : Moves s (s.issued w).turnedAround := .tail (moves_issued w h) (.turnsAround _)
  have hc : Moves s (s.issued w).turnedAround.collected := .tail hi (.collects _ (by simp))
  exact .tail hc (.retires _ (collected_seq_done _))

theorem moves_transactions (ws : List CmdWord) (h : s.seq = .idle) : Moves s (s.transactions ws) := by
  induction ws generalizing s with
  | nil => exact .refl
  | cons w ws ih => exact (moves_transaction w h).trans (ih rfl)

theorem moves_reconciled (c : Option HostCommand) (h : s.seq = .idle) : Moves s (s.reconciled c) :=
  .tail (moves_transactions _ h) (.returnsSnapshot _ _)

/-! ### The operations -/

/-- Which operations the unit functions are (R93 to R96, R113, R114, R128, R135). -/
def IsUnitFunction (i : Instr) : Prop :=
  (∃ bs, i = .crc16 bs) ∨ i = .crcInit ∨ (∃ b, i = .crcUpd b) ∨ i = .crcGet ∨ (∃ x a b, i = .encRd x a b) ∨
    (∃ x a b, i = .encWr x a b) ∨ (∃ raw q, i = .decRd raw q) ∨ ∃ raw, i = .decWr raw

theorem execDecRd_eq_next {raw : List Byte} {q : Word} (h : execDecRd raw q s = .next t) :
    t = (s.withAcc (recomputedCrc raw)).withOut (.decoded (decodeRead raw q)) := by
  unfold execDecRd at h
  split at h
  · exact (Host.Outcome.next.inj h).symm
  · cases h

/-- A unit function writes `ACC` and the returned value, and nothing else. -/
theorem exec_unitFunction {i : Instr} (hi : IsUnitFunction i) (h : exec i s = .next t) :
    ∃ a v, t = { s with acc := a, out := v } := by
  rcases hi with ⟨bs, rfl⟩ | rfl | ⟨b, rfl⟩ | rfl | ⟨x, a, b, rfl⟩ | ⟨x, a, b, rfl⟩ | ⟨raw, q, rfl⟩ | ⟨raw, rfl⟩
  pick_goal 7 -- `DEC.RD`, which alone can be refused
  · exact ⟨_, _, execDecRd_eq_next h⟩
  all_goals exact ⟨_, _, (Host.Outcome.next.inj h).symm⟩

theorem moves_unitFunction {i : Instr} (hi : IsUnitFunction i) (h : exec i s = .next t) : Moves s t := by
  obtain ⟨a, v, rfl⟩ := exec_unitFunction hi h
  exact .single (.unit s a v)

/-- What the operations of the host that start a transaction have in common: taken in `Idle`, if the configuration is legal,
and held in any other state (R22, R149). `o` is the offer held, `u` the state after the operation. -/
def takenInIdle (o : Offer) (u s : State) : Result :=
  if s.seq = .idle then (if s.cfg.legal then .next u else .refused .illegalConfiguration) else .next (s.hold o)

theorem transfer_eq (w : CmdWord) (s : State) : transfer w s = takenInIdle (.cmdWord w) (s.transaction w) s := rfl

theorem execIssue_eq (w : CmdWord) (s : State) : execIssue w s = takenInIdle (.op (.issue w)) (s.issued w) s := rfl

theorem execReconcile_eq (c : Option HostCommand) (s : State) :
    execReconcile c s = takenInIdle (.op (.reconcile c)) (s.reconciled c) s := rfl

theorem moves_takenInIdle {o : Offer} {u : State} (h : takenInIdle o u s = .next t) (hu : s.seq = .idle → Moves s u) :
    Moves s t := by
  unfold takenInIdle at h
  split at h
  · split at h
    · cases h; exact hu ‹_›
    · cases h
  · cases h; exact .single (.offers s _)

theorem moves_transfer {w : CmdWord} (h : transfer w s = .next t) : Moves s t :=
  moves_takenInIdle (transfer_eq w s ▸ h) (moves_transaction w)

theorem moves_execIssue {w : CmdWord} (h : execIssue w s = .next t) : Moves s t :=
  moves_takenInIdle (execIssue_eq w s ▸ h) (moves_issued w)

theorem moves_execReconcile {c : Option HostCommand} (h : execReconcile c s = .next t) : Moves s t :=
  moves_takenInIdle (execReconcile_eq c s ▸ h) (moves_reconciled c)

theorem moves_execTurnaround (h : execTurnaround s = .next t) : Moves s t := by
  unfold execTurnaround at h
  split at h
  · cases h; exact .single (.turnsAround s)
  · cases h

theorem moves_execCollect (h : execCollect s = .next t) : Moves s t := by
  unfold execCollect at h
  split at h
  · split at h
    · cases h; exact .single (.collects s ‹_›)
    · cases h
  · cases h

theorem moves_execRetire (h : execRetire s = .next t) : Moves s t := by
  unfold execRetire at h
  split at h
  · cases h; exact .single (.retires s ‹_›)
  · cases h

theorem moves_execRxRead (n : Nat) (s : State) : Moves s ((afterAnswer n s).withOut (.bytes (answer n s))) :=
  .tail (.single (.answers s n)) (.unit _ (afterAnswer n s).acc _)

/-- Every operation is a sequence of moves. -/
theorem moves_exec {i : Instr} (h : exec i s = .next t) : Moves s t := by
  cases i with
  | reqFc03 x a b c => cases h; exact .single (.deviceReceives s _)
  | reqFc06 x a b c => cases h; exact .single (.deviceReceives s _)
  | rspFc06 x f a b c => cases h; exact .single (.arrives s _)
  | rspFc03 x f n vs c => cases h; exact .single (.arrives s _)
  | xferRd a b => exact moves_transfer h
  | xferWr a b => exact moves_transfer h
  | crc16 bs => exact moves_unitFunction (by simp [IsUnitFunction]) h
  | crcInit => exact moves_unitFunction (by simp [IsUnitFunction]) h
  | crcUpd b => exact moves_unitFunction (by simp [IsUnitFunction]) h
  | crcGet => exact moves_unitFunction (by simp [IsUnitFunction]) h
  | encRd x a b => exact moves_unitFunction (by simp [IsUnitFunction]) h
  | encWr x a b => exact moves_unitFunction (by simp [IsUnitFunction]) h
  | decRd raw q => exact moves_unitFunction (by simp [IsUnitFunction]) h
  | decWr raw => exact moves_unitFunction (by simp [IsUnitFunction]) h
  | txWrite bs => cases h; exact .single (.emits s bs)
  | waitTurn => cases h; exact .single (.turnsAround s)
  | rxRead n => cases h; exact moves_execRxRead n s
  | issue w => exact moves_execIssue h
  | turnaround => exact moves_execTurnaround h
  | collect => exact moves_execCollect h
  | retire => exact moves_execRetire h
  | reconcile c => exact moves_execReconcile h

/-! ### The step -/

theorem moves_reconcilerStep (h : reconcilerStep s = .next t) : Moves s t := by
  unfold reconcilerStep at h
  split at h
  · cases h; exact .refl
  next w ws hh => exact .head (.takes s w ws hh) (moves_execIssue h)
  · cases h; exact .single (.concludes s)

theorem moves_advance (h : advance s = .next t) : Moves s t := by
  unfold advance at h
  split at h
  · exact moves_reconcilerStep h
  · exact moves_execTurnaround h
  · exact moves_execCollect h
  · exact moves_execRetire h
  · exact moves_execRetire h

theorem moves_runOther {o : Offer} {rest : List Offer} (h : runOther o rest s = .next t) : Moves s t := by
  have hp : Moves s { s with prog := rest } := .single (.offers s rest)
  cases o with
  | cmdWord w => cases h; exact hp
  | request bs => cases h; exact .tail hp (.deviceReceives _ bs)
  | response bs => cases h; exact .tail hp (.arrives _ bs)
  | op i => cases h; exact hp
  | reset => cases h; exact .tail hp (.resets _)
  | reconcile c =>
    simp only [runOther] at h
    split at h
    · cases h; exact .tail hp (.enters _ c)
    · exact moves_advance h
    · cases h
  | proceed => exact hp.trans (moves_advance h)

/-- Every step of the machine is a sequence of moves. -/
theorem moves_step (h : step s = .next t) : Moves s t := by
  match hp : s.prog with
  | [] => exact moves_advance (step_of_nil hp ▸ h)
  | o :: rest =>
    match hd : decode o with
    | .rejected e => exact moves_runOther (step_of_rejected hd hp ▸ h)
    | .instr i =>
      match ha : admission i s with
      | .run => exact .head (.offers s rest) (moves_exec (step_of_run hd hp ha ▸ h))
      | .wait => exact moves_advance (step_of_wait hd hp ha ▸ h)
      | .deny => rw [step_of_deny hd hp ha] at h; cases h

end Sys2Proof.Machine
end

section
/-! SUPPORT. The invariant of the state (10_state.md R12, R14, R16 to R19): reset establishes it, every move keeps it. -/

namespace Sys2Proof.Machine

variable {s t : State}

/-! ### What a decoder's success says of the request (R12) -/

theorem decodeRead_eq_readOk_length {raw : List Byte} {q : Word} {vs : List Word} (h : decodeRead raw q = .readOk vs) :
    vs.length = q.toNat := by
  unfold decodeRead at h
  split at h
  · split at h
    · cases h; simp [responseRegisters]
    · cases h
  · cases h

theorem decodeRead_ne_writeOk (raw : List Byte) (q : Word) : decodeRead raw q ≠ .writeOk := by
  unfold decodeRead
  split
  · split <;> simp
  · simp

theorem decodeWrite_ne_readOk (raw : List Byte) (vs : List Word) : decodeWrite raw ≠ .readOk vs := by
  unfold decodeWrite
  split
  · split <;> simp
  · simp

theorem decodeFor_eq_readOk {r : Request} {raw : List Byte} {vs : List Word} (h : decodeFor r raw = .readOk vs) :
    r.k = .readHoldingRegisters ∧ vs.length = r.b.toNat := by
  unfold decodeFor at h
  split at h
  · exact ⟨‹_›, decodeRead_eq_readOk_length h⟩
  · exact absurd h (decodeWrite_ne_readOk _ _)

theorem decodeFor_eq_writeOk {r : Request} {raw : List Byte} (h : decodeFor r raw = .writeOk) :
    r.k = .writeSingleRegister := by
  unfold decodeFor at h
  split at h
  · exact absurd h (decodeRead_ne_writeOk _ _)
  · assumption

theorem decodeFor_of_collectedResult_isOk {r : TransactionResult} (h : collectedResult s = r) (hr : r.isOk = true) :
    decodeFor s.req (answer s.explen s) = r := by
  unfold collectedResult at h
  split at h
  · subst h; cases hr
  · exact h

theorem eq_failed_of_not_isOk {r : TransactionResult} (h : r.isOk ≠ true) : ∃ k, r = .failed k := by
  cases r with
  | readOk vs => exact absurd rfl h
  | writeOk => exact absurd rfl h
  | failed k => exact ⟨k, rfl⟩

/-! ### The moves that touch the registers of the core -/

/-- Reset establishes the invariant, and needs nothing but the canonical form of the slave's registers. -/
theorem inv_hardReset (h : s.dev.wf = true) : Inv (hardReset s) := by
  constructor <;> simp [State.reset, h]

/-- `issue` writes every latch that the invariant speaks of (R150). -/
theorem inv_latched (w : CmdWord) (h : Inv s) : Inv (s.latched (requestOf w)) where
  rxlen_eq := rfl
  rxlen_le := Nat.zero_le _
  explen_le := expectedLength_le _ _
  txbuf_length := .inr (requestFrame_length _ _)
  waiting := by simp
  decoded := by simp
  failed := by simp
  inFlight := by simp
  readOk := by simp
  writeOk := by simp
  host := h.host
  dev_wf := h.dev_wf

theorem inv_turnedAround (h : Inv s) : Inv s.turnedAround := by
  by_cases hs : s.seq = .sent
  · have he : s.turnedAround = s.withSeq .awaitingResponse := if_pos hs
    rw [he]
    exact { h with
      waiting := fun _ => h.waiting (.inl hs)
      decoded := by simp
      failed := by simp
      inFlight := fun _ => h.inFlight (by simp [hs]) }
  · have he : s.turnedAround = s := if_neg hs
    rwa [he]

/-- `collect` writes what the adapter answered, never more than `EXPLEN`, and the decoder's result for the latched request
(R152). -/
theorem inv_collected (hs : s.seq = .awaitingResponse) (h : Inv s) : Inv s.collected where
  rxlen_eq := by simp
  rxlen_le := by simpa using answer_length_le s s.explen
  explen_le := by simpa using h.explen_le
  txbuf_length := by simpa using h.txbuf_length
  waiting hw := by
    rcases collected_seq_done s with hd | hd <;> rw [hd] at hw <;> simp at hw
  decoded hd := by
    refine ⟨_, s.collected_result, ?_⟩
    by_contra hr
    simp [hr] at hd
  failed hf := by
    have hr : (collectedResult s).isOk ≠ true := fun hr => by simp [hr] at hf
    obtain ⟨k, hk⟩ := eq_failed_of_not_isOk hr
    exact ⟨k, by rw [State.collected_result, hk]⟩
  inFlight _ := by simpa using h.inFlight (by simp [hs])
  readOk vs hr := by
    rw [State.collected_result, Option.some.injEq] at hr
    simpa using decodeFor_eq_readOk (decodeFor_of_collectedResult_isOk hr rfl)
  writeOk hr := by
    rw [State.collected_result, Option.some.injEq] at hr
    simpa using decodeFor_eq_writeOk (decodeFor_of_collectedResult_isOk hr rfl)
  host := by simpa using h.host
  dev_wf := by simpa using h.dev_wf

theorem inv_retired (h : Inv s) : Inv s.retired :=
  { h with
    waiting := by simp
    decoded := by simp
    failed := by simp
    inFlight := by simp }

/-! ### The moves of the device, the adapter and the host -/

theorem inv_deviceReceive (bs : List Byte) (h : Inv s) : Inv (deviceReceive bs s) := by
  obtain ⟨rx, dev, he, hw⟩ := deviceReceive_spec s bs
  rw [he]
  exact { h with dev_wf := hw h.dev_wf }

theorem inv_emitTx (bs : List Byte) (h : Inv s) : Inv (emitTx bs s) :=
  inv_deviceReceive bs (s := { s with tx := s.tx ++ [bs] }) { h with }

theorem inv_afterAnswer (n : Nat) (h : Inv s) : Inv (afterAnswer n s) := by
  obtain ⟨rx, arrivals, k, he⟩ := afterAnswer_spec s n
  rw [he]
  exact { h with }

/-- The commands left after the next one are last ones of the same `RECONCILE`. -/
theorem inv_takes {w : CmdWord} {ws : List CmdWord} (hh : s.host = some (w :: ws)) (h : Inv s) :
    Inv { s with host := some ws } := by
  obtain ⟨c, hc⟩ := h.host _ hh
  refine { h with host := ?_ }
  rintro _ ⟨⟩
  exact ⟨c, (List.suffix_cons w ws).trans hc⟩

theorem inv_entered (c : Option HostCommand) (h : Inv s) : Inv (s.entered c) := by
  refine { h with host := ?_ }
  rintro _ ⟨⟩
  exact ⟨c, List.suffix_refl _⟩

theorem inv_concluded (h : Inv s) : Inv s.concluded :=
  { h with host := by simp }

/-- Every move keeps the invariant. -/
theorem Move.keeps_inv (hm : Move s t) (h : Inv s) : Inv t := by
  cases hm with
  | offers p => exact { h with }
  | unit a v => exact { h with }
  | deviceReceives bs => exact inv_deviceReceive bs h
  | arrives bs => exact { h with }
  | emits bs => exact inv_emitTx bs h
  | answers n => exact inv_afterAnswer n h
  | latches w hs => exact inv_latched w h
  | turnsAround => exact inv_turnedAround h
  | collects hs => exact inv_collected hs h
  | retires hs => exact inv_retired h
  | resets => exact inv_hardReset h.dev_wf
  | enters c => exact inv_entered c h
  | takes w ws hh => exact inv_takes hh h
  | concludes => exact inv_concluded h
  | returnsSnapshot x => exact { h with }

theorem step_keeps_inv (h : Inv s) (hs : step s = .next t) : Inv t :=
  (moves_step hs).preserves Move.keeps_inv h

end Sys2Proof.Machine

namespace Sys2Proof

open Machine

/-- Settles O50: a step is a sequence of moves (`moves_step`), each of which keeps the invariant (`Move.keeps_inv`). -/
theorem stepKeepsInv : Obligations.StepKeepsInv := by
  unfold Obligations.StepKeepsInv
  exact fun s t => step_keeps_inv

/-- Settles O49: the reset state is what reset makes of it. -/
theorem resetInv : Obligations.ResetInv := by
  unfold Obligations.ResetInv
  exact inv_hardReset (s := State.reset) rfl

end Sys2Proof
end

section
/-! SUPPORT. What no step writes, and what the unit functions leave alone (10_state.md sections 2.5 and 2.6, R20, R21;
20_memory.md section 6, R54). -/

namespace Sys2Proof.Machine

variable {s t u : State}

/-- The configuration is the same, and the frames sent and the results delivered are still there, in order. -/
structure Extends (s t : State) : Prop where
  cfg : t.cfg = s.cfg
  tx : s.tx <+: t.tx
  res : s.res <+: t.res

theorem Extends.refl (s : State) : Extends s s := ⟨rfl, List.prefix_refl _, List.prefix_refl _⟩

theorem Extends.trans (h : Extends s t) (h' : Extends t u) : Extends s u :=
  ⟨h'.cfg.trans h.cfg, h.tx.trans h'.tx, h.res.trans h'.res⟩

/-- A change of anything but the configuration and the two records. -/
theorem Extends.of_eq (hc : t.cfg = s.cfg) (ht : t.tx = s.tx) (hr : t.res = s.res) : Extends s t :=
  ⟨hc, ht ▸ List.prefix_refl _, hr ▸ List.prefix_refl _⟩

/-- Only the bytes handed to the adapter and the result delivered are recorded, each at the end of its record. -/
theorem Move.extends (hm : Move s t) : Extends s t := by
  cases hm with
  | offers p => exact .of_eq rfl rfl rfl
  | unit a v => exact .of_eq rfl rfl rfl
  | deviceReceives bs => exact .of_eq (by simp) (by simp) (by simp)
  | arrives bs => exact .of_eq rfl rfl rfl
  | emits bs => exact ⟨by simp, by simp, by simp⟩
  | answers n => exact .of_eq (by simp) (by simp) (by simp)
  | latches w hs => exact .of_eq rfl rfl rfl
  | turnsAround => exact .of_eq (by simp) (by simp) (by simp)
  | collects hs => exact .of_eq (by simp) (by simp) (by simp)
  | retires hs => exact ⟨rfl, List.prefix_refl _, List.prefix_append _ _⟩
  | resets => exact .of_eq rfl rfl rfl
  | enters c => exact .of_eq rfl rfl rfl
  | takes w ws hh => exact .of_eq rfl rfl rfl
  | concludes => exact .of_eq rfl rfl rfl
  | returnsSnapshot x => exact .of_eq rfl rfl rfl

theorem Moves.extends (h : Moves s t) : Extends s t :=
  h.preserves (P := Extends s) (fun hm hs => hs.trans hm.extends) (.refl s)

end Sys2Proof.Machine

namespace Sys2Proof

open Machine

/-- Settles O42: a step is a sequence of moves, each of which extends the two records and keeps the configuration. -/
theorem nothingRewritten : Obligations.NothingRewritten := by
  unfold Obligations.NothingRewritten
  intro s t h
  obtain ⟨hcfg, htx, hres⟩ := (moves_step h).extends
  exact ⟨hcfg, htx, hres⟩

/-- Settles O43: a unit function writes `ACC` and the returned value alone (`exec_unitFunction`). -/
theorem unitFrame : Obligations.UnitFrame := by
  unfold Obligations.UnitFrame
  intro i s t hi h
  obtain ⟨a, v, rfl⟩ := exec_unitFunction hi h
  simp

end Sys2Proof
end

section
/-! SUPPORT. A transaction forgets what stood in the core before it (10_state.md section 4, R28): `issue` writes every latch
before any of them is read. -/

namespace Sys2Proof.Machine

/-- The state with other registers of the core, `SEQ` apart. -/
def State.withStale (req : Request) (acc : Word) (txbuf rxbuf : List Byte) (explen rxlen : Nat)
    (result : Option TransactionResult) (s : State) : State :=
  { s with
    req := req, acc := acc, txbuf := txbuf, rxbuf := rxbuf, explen := explen, rxlen := rxlen
    result := result }

variable {req : Request} {acc : Word} {txbuf rxbuf : List Byte} {explen rxlen : Nat} {result : Option TransactionResult}
variable {s : State}

theorem latched_withStale (r : Request) :
    (s.withStale req acc txbuf rxbuf explen rxlen result).latched r = s.latched r := rfl

theorem issued_withStale (w : CmdWord) :
    (s.withStale req acc txbuf rxbuf explen rxlen result).issued w = s.issued w := by
  rw [issued_eq, issued_eq, latched_withStale]
  rfl

theorem transaction_withStale (w : CmdWord) :
    (s.withStale req acc txbuf rxbuf explen rxlen result).transaction w = s.transaction w := by
  rw [State.transaction, State.transaction, issued_withStale]

/-- In `Idle`, where a command is taken and not held. -/
theorem transfer_withStale (w : CmdWord) (h : s.seq = .idle) :
    transfer w (s.withStale req acc txbuf rxbuf explen rxlen result) = transfer w s := by
  have h' : (s.withStale req acc txbuf rxbuf explen rxlen result).seq = .idle := h
  rw [transfer, transfer, if_pos h, if_pos h', transaction_withStale]
  rfl

/-- A command word decodes to the command with its own fields. -/
theorem exec_decodeCmd (w : CmdWord) (s : State) : exec (decodeCmd w) s = transfer w s := by
  have hw := packCmd_fields w
  unfold decodeCmd
  split
  next hk => rw [hk] at hw; exact congrArg (transfer · s) hw
  next hk => rw [Bool.eq_false_of_not_eq_true hk] at hw; exact congrArg (transfer · s) hw

end Sys2Proof.Machine

namespace Sys2Proof

open Machine

/-- Settles O40: a command taken in `Idle` does the same from the state with other registers (`transfer_withStale`). -/
theorem staleStateIrrelevant : Obligations.StaleStateIrrelevant := by
  unfold Obligations.StaleStateIrrelevant
  intro w s t req acc txbuf rxbuf explen rxlen result hs h
  change exec (decodeCmd w) (s.withStale req acc txbuf rxbuf explen rxlen result) = .next t
  rw [exec_decodeCmd, transfer_withStale w hs, ← exec_decodeCmd, h]

end Sys2Proof
end

section
/-! SUPPORT. The register view (10_state.md section 2.6, R23, R24, R30): the fields of `STATUS`, and the reads of the buffers. -/

namespace Sys2Proof.Machine

variable {s : State}

/-! ### A byte of two three-bit fields, in bits 6:4 and 2:0 -/

theorem extractLsb'_low_of_fields (k c : BitVec 3) :
    ((k.setWidth 8 <<< 4) ||| c.setWidth 8).extractLsb' 0 3 = c := by
  ext i hi
  simp [hi, show i < 4 by omega, show i < 8 by omega]

theorem extractLsb'_high_of_fields (k c : BitVec 3) :
    ((k.setWidth 8 <<< 4) ||| c.setWidth 8).extractLsb' 4 3 = k := by
  ext i hi
  simp [hi, show 4 + i < 8 by omega, BitVec.getLsbD_of_ge c (4 + i) (by omega)]

theorem getLsbD_three_of_fields (k c : BitVec 3) : ((k.setWidth 8 <<< 4) ||| c.setWidth 8).getLsbD 3 = false := by
  simp

theorem getLsbD_seven_of_fields (k c : BitVec 3) : ((k.setWidth 8 <<< 4) ||| c.setWidth 8).getLsbD 7 = false := by
  simp

/-! ### `STATUS` -/

theorem statusByte_seq (s : State) : (statusByte s).extractLsb' 0 3 = s.seq.code := extractLsb'_low_of_fields _ _

theorem statusByte_kind (s : State) : (statusByte s).extractLsb' 4 3 = kindField s := extractLsb'_high_of_fields _ _

theorem statusByte_bit3 (s : State) : (statusByte s).getLsbD 3 = false := getLsbD_three_of_fields _ _

theorem statusByte_bit7 (s : State) : (statusByte s).getLsbD 7 = false := getLsbD_seven_of_fields _ _

theorem FailureKind.code_ne_zero (k : FailureKind) : k.code ≠ 0 := by
  cases k <;> simp [FailureKind.code]

theorem kindField_of_failed {k : FailureKind} (hs : s.seq = .failed) (hr : s.result = some (.failed k)) :
    kindField s = k.code := by
  simp [kindField, hs, hr, TransactionResult.kindCode]

theorem kindField_of_ne_failed (hs : s.seq ≠ .failed) : kindField s = 0 := if_neg hs

theorem kindField_ne_zero_iff (h : Inv s) : kindField s ≠ 0 ↔ s.seq = .failed := by
  constructor
  · exact fun hk => by_contra fun hs => hk (kindField_of_ne_failed hs)
  · intro hs
    obtain ⟨k, hr⟩ := h.failed hs
    exact kindField_of_failed hs hr ▸ k.code_ne_zero

/-! ### The other indices -/

theorem requestKind_bit_iff (k : RequestKind) : k.bit = true ↔ k = .writeSingleRegister := by
  cases k <;> simp [RequestKind.bit]

/-- Index 5 holds the latched request as a command word (R66). -/
theorem requestWord_fields (r : Request) :
    ((requestWord r).getLsbD 32 = true ↔ r.k = .writeSingleRegister) ∧ (requestWord r).extractLsb' 16 16 = r.a ∧
      (requestWord r).extractLsb' 0 16 = r.b := by
  refine ⟨?_, cmdA_packCmd _ _ _, cmdB_packCmd _ _ _⟩
  rw [← requestKind_bit_iff, ← cmdK_packCmd r.k.bit r.a r.b]
  rfl

theorem registerView_of_nine_lt (s : State) {n : Nat} (h : 9 < n) : registerView s n = none := by
  obtain ⟨m, rfl⟩ := Nat.exists_eq_add_of_le' h
  rfl

theorem explen_lt (h : Inv s) : s.explen < 2 ^ 18 := h.explen_le.trans_lt (by decide)

/-- No byte is read from a buffer that holds none (R30). -/
theorem memRead_nil (i n : Nat) : memRead [] i (n + 1) = .error .bufferNoValue := if_neg (by simp)

end Sys2Proof.Machine

namespace Sys2Proof

open Machine

/-- Settles O54: the fields of the byte by the lemmas `statusByte_seq` to `statusByte_bit7`, `KIND` by the invariant, the other
indices by the definition of the view. -/
theorem statusFields : Obligations.StatusFields := by
  unfold Obligations.StatusFields
  intro s h
  refine ⟨⟨statusByte_bit3 s, statusByte_bit7 s, statusByte_kind s, kindField_ne_zero_iff h⟩, ?_, ?_, ?_⟩
  · rw [statusByte_seq]
    refine ⟨?_, ?_, ?_, ?_, ?_⟩ <;> rintro hs <;> rw [hs] <;> rfl
  · exact fun hs => ⟨kindField_of_failed hs, kindField_of_failed hs, kindField_of_failed hs⟩
  · exact ⟨rfl, rfl, rfl, rfl, rfl, ⟨requestWord s.req, rfl, requestWord_fields s.req⟩, rfl, explen_lt h, rfl,
      h.rxlen_le.trans_lt (explen_lt h), rfl, h.txbuf_length, rfl, h.rxlen_eq.symm, fun n => registerView_of_nine_lt s⟩

/-- Settles O52: the values of `State.reset`, whose buffers are empty (`memRead_nil`). -/
theorem resetValues : Obligations.ResetValues := by
  unfold Obligations.ResetValues
  exact ⟨rfl, rfl, rfl, rfl, rfl, rfl, fun i => memRead_nil i 0, fun i => memRead_nil i 0⟩

end Sys2Proof
end

section
/-! SUPPORT. What is refused (10_state.md section 2.6, R22; 42_frame_decoder.md section 1, R126; 60_exceptions.md section 6,
R230). -/

namespace Sys2Proof.Machine

variable {s : State}

theorem Cfg.legal_eq_false_iff (c : Cfg) : c.legal = false ↔ c.slave.toNat = 0 ∨ 248 ≤ c.slave.toNat := by
  rw [Cfg.legal, ← Bool.not_eq_true, Bool.and_eq_true, decide_eq_true_eq, decide_eq_true_eq]
  omega

theorem takenInIdle_refused_iff (o : Offer) (u : State) (hs : s.seq = .idle) :
    takenInIdle o u s = .refused .illegalConfiguration ↔ s.cfg.legal = false := by
  cases hl : s.cfg.legal <;> simp [takenInIdle, hs, hl]

theorem execIssue_refused_iff (w : CmdWord) (hs : s.seq = .idle) :
    execIssue w s = .refused .illegalConfiguration ↔ s.cfg.legal = false :=
  takenInIdle_refused_iff _ (s.issued w) hs

theorem transfer_refused_iff (w : CmdWord) (hs : s.seq = .idle) :
    transfer w s = .refused .illegalConfiguration ↔ s.cfg.legal = false :=
  takenInIdle_refused_iff _ (s.transaction w) hs

theorem execReconcile_refused_iff (c : Option HostCommand) (hs : s.seq = .idle) :
    execReconcile c s = .refused .illegalConfiguration ↔ s.cfg.legal = false :=
  takenInIdle_refused_iff _ (s.reconciled c) hs

theorem execDecRd_refused_iff (raw : List Byte) (q : Word) (s : State) :
    execDecRd raw q s = .refused .decoderPrecondition ↔ raw.length < 5 + 2 * q.toNat := by
  by_cases h : raw.length < 5 + 2 * q.toNat <;> simp [execDecRd, decodeReadPrecondition, h]

end Sys2Proof.Machine

namespace Sys2Proof

open Machine

/-- Settles O31: each operation that reads `CFG.SLAVE` is refused in `Idle` exactly when the configuration is not legal. -/
theorem refusedOutsideContract : Obligations.RefusedOutsideContract := by
  unfold Obligations.RefusedOutsideContract
  refine ⟨fun s hs => ?_, execDecRd_refused_iff⟩
  rw [← Cfg.legal_eq_false_iff]
  refine ⟨⟨fun ⟨w, hw⟩ => (execIssue_refused_iff w hs).1 hw, fun hl => ⟨0, (execIssue_refused_iff 0 hs).2 hl⟩⟩, fun hl => ?_⟩
  exact ⟨fun w => (execIssue_refused_iff w hs).2 hl, fun a b => (transfer_refused_iff _ hs).2 hl,
    fun a b => (transfer_refused_iff _ hs).2 hl, fun c => (execReconcile_refused_iff c hs).2 hl⟩

end Sys2Proof
end

section
/-! SUPPORT. The Reconciler entered as a move of the host (20_memory.md section 8, R58; 45_host_reconciler.md section 3, R199):
its transactions made step by step, and what falls between them. -/

namespace Sys2Proof.Machine

variable {s : State} {rest : List Offer} {i : Instr} {w : CmdWord} {ws : List CmdWord} {bs : List Byte}

/-! ### A response on its way to the adapter -/

/-- What the decoder reads from a response is encoded by the same bytes. -/
theorem encode_of_decodeResponse (h : decodeResponse bs = .instr i) : encode i = some (.response bs) := by
  unfold decodeResponse at h
  split at h
  · cases h
    simp [encode, fieldsBody, fieldBytes, trailer]
  next slave function byteCount tail _ =>
    split at h
    next heven =>
      cases h
      have hbody : registerBytes (bytesRegisters (allButTrailer tail)) = allButTrailer tail :=
        registerBytes_bytesRegisters _ (by simp only [allButTrailer, List.length_take]; omega)
      simp [encode, registersBody, hbody, ← eq_append_trailer tail heven.2]
    · cases h
  · cases h

/-- An operation encoded by a response is an event of the link: its bytes reach the adapter. -/
theorem exec_of_encode_response (h : encode i = some (.response bs)) (s : State) :
    mover i = .link ∧ exec i s = .next (arrive bs s) := by
  cases i <;> cases h <;> exact ⟨rfl, rfl⟩

/-- The bytes of a response reach the adapter, whether they form a frame of the table or not (R183). -/
theorem step_of_response (hp : s.prog = .response bs :: rest) : step s = .next (arrive bs { s with prog := rest }) := by
  match hd : decodeResponse bs with
  | .rejected e => exact step_of_rejected (o := .response bs) hd hp
  | .instr i =>
    obtain ⟨hm, he⟩ := exec_of_encode_response (encode_of_decodeResponse hd) { s with prog := rest }
    rw [step_of_run (o := .response bs) hd hp (admission_of_sequencer_or_link (.inr hm)), he]

/-! ### The other offers, while the Reconciler is at work -/

theorem mover_decodeCmd (w : CmdWord) : mover (decodeCmd w) = .host := by
  unfold decodeCmd
  split <;> rfl

theorem step_of_cmdWord_wait (hh : s.host = some ws) (hp : s.prog = .cmdWord w :: rest) : step s = advance s := by
  refine step_of_wait (o := .cmdWord w) rfl hp ?_
  rw [admission_of_host (mover_decodeCmd w)]
  simp [hh]

theorem step_of_reset (hp : s.prog = .reset :: rest) : step s = .next (hardReset { s with prog := rest }) :=
  step_of_rejected (e := .noOperation) rfl hp

/-! ### The Reconciler's own steps -/

theorem step_of_no_command_left (hs : s.seq = .idle) (hp : s.prog = []) (hh : s.host = some []) :
    step s = .next s.concluded := by
  simp only [step_of_nil hp, advance, hs, reconcilerStep, hh]

theorem step_of_next_command (hs : s.seq = .idle) (hp : s.prog = []) (hh : s.host = some (w :: ws)) :
    step s = execIssue w { s with host := some ws } := by
  simp only [step_of_nil hp, advance, hs, reconcilerStep, hh]

/-! ### The machine's own steps of a transaction in flight (R151 to R153) -/

theorem takenInIdle_of_idle (o : Offer) (u : State) (hs : s.seq = .idle) (hl : s.cfg.legal = true) :
    takenInIdle o u s = .next u := by
  rw [takenInIdle, if_pos hs, if_pos hl]

theorem execIssue_of_idle (w : CmdWord) (hs : s.seq = .idle) (hl : s.cfg.legal = true) :
    execIssue w s = .next (s.issued w) :=
  takenInIdle_of_idle _ _ hs hl

/-- The length that `issue` latches covers what the decoder needs (R126, R148). -/
theorem collectDefined_of_issued (s : State) (w : CmdWord) : (s.issued w).turnedAround.collectDefined = true := by
  unfold State.collectDefined
  split
  next hk =>
    rw [State.turnedAround_req, State.issued_req] at hk
    simp [hk, expectedLength]
  · rfl

theorem step_of_sent (hp : s.prog = []) (hs : s.seq = .sent) : step s = .next s.turnedAround := by
  simp only [step_of_nil hp, advance, hs, execTurnaround, if_pos]

theorem step_of_awaitingResponse (hp : s.prog = []) (hs : s.seq = .awaitingResponse) (hd : s.collectDefined = true) :
    step s = .next s.collected := by
  simp only [step_of_nil hp, advance, hs, execCollect, hd, if_pos]

theorem step_of_done (hp : s.prog = []) (hs : s.seq = .decoded ∨ s.seq = .failed) : step s = .next s.retired := by
  rw [step_of_nil hp]
  rcases hs with hs | hs <;> simp [advance, hs, execRetire]

/-! ### Runs -/

theorem run_succ_of_step {M : Host.Core} {s t : M.State} (h : M.step s = .next t) (n : Nat) :
    M.run (n + 1) s = M.run n t := by
  rw [Host.Core.run, h]

theorem run_add_of_run {M : Host.Core} {s t : M.State} {m : Nat} (h : M.run m s = .next t) (n : Nat) :
    M.run (m + n) s = M.run n t := by
  induction m generalizing s with
  | zero => cases h; rw [Nat.zero_add]
  | succ m ih =>
    rw [Nat.add_right_comm]
    match hs : M.step s with
    | .next u => rw [run_succ_of_step hs] at h ⊢; exact ih h
    | .fault r => simp [Host.Core.run, hs] at h
    | .refused r => simp [Host.Core.run, hs] at h

/-- From the command issued, with no offer, the machine's own next three steps end the transaction. -/
theorem core_run_issued (w : CmdWord) (hp : s.prog = []) : core.run 3 (s.issued w) = .next (s.transaction w) := by
  have hturn : step (s.issued w) = .next (s.issued w).turnedAround := step_of_sent (by simpa using hp) (by simp)
  have hcollect : step (s.issued w).turnedAround = .next (s.issued w).turnedAround.collected :=
    step_of_awaitingResponse (by simpa using hp) (by simp) (collectDefined_of_issued s w)
  have hretire : step (s.issued w).turnedAround.collected = .next (s.transaction w) :=
    step_of_done (by simpa using hp) (collected_seq_done _)
  calc core.run 3 (s.issued w)
    _ = core.run 2 (s.issued w).turnedAround := run_succ_of_step (M := core) hturn 2
    _ = core.run 1 (s.issued w).turnedAround.collected := run_succ_of_step (M := core) hcollect 1
    _ = core.run 0 (s.transaction w) := run_succ_of_step (M := core) hretire 0

/-- With no offer, four steps are the Reconciler's next transaction. -/
theorem core_run_next_command (w : CmdWord) (ws : List CmdWord) (hs : s.seq = .idle) (hl : s.cfg.legal = true)
    (hp : s.prog = []) :
    core.run 4 { s with host := some (w :: ws) } = .next { s.transaction w with host := some ws } := by
  have hissue : step { s with host := some (w :: ws) } = .next (State.issued { s with host := some ws } w) := by
    rw [step_of_next_command (s := { s with host := some (w :: ws) }) hs hp rfl]
    exact execIssue_of_idle w hs hl
  rw [← State.transaction_withHost]
  exact (run_succ_of_step (M := core) hissue 3).trans (core_run_issued w hp)

/-- With no offer, the Reconciler's transactions are made one after the other, four steps each (R199). -/
theorem core_run_commands (ws : List CmdWord) (hs : s.seq = .idle) (hl : s.cfg.legal = true) (hp : s.prog = []) :
    core.run (4 * ws.length) { s with host := some ws } = .next { s.transactions ws with host := some [] } := by
  induction ws generalizing s with
  | nil => rfl
  | cons w ws ih =>
    rw [List.length_cons, Nat.mul_succ, Nat.add_comm, run_add_of_run (core_run_next_command w ws hs hl hp)]
    exact ih rfl (by simpa using hl) (by simpa using hp)

/-! ### The whole `RECONCILE` -/

theorem execReconcile_of_idle (c : Option HostCommand) (hs : s.seq = .idle) (hl : s.cfg.legal = true) :
    execReconcile c s = .next (s.reconciled c) :=
  takenInIdle_of_idle _ _ hs hl

/-- What the Reconciler leaves after its last transaction is what the macro leaves. -/
theorem concluded_transactions (c : Option HostCommand) (hh : s.host = none) :
    State.concluded { s.transactions (reconcileCommands c) with host := some [] } = s.reconciled c := by
  simp only [State.concluded, State.reconciled, State.transactions_host, hh]

/-- From its entry, with no offer, the Reconciler ends where the macro ends (R196). -/
theorem core_run_entered (c : Option HostCommand) (hs : s.seq = .idle) (hh : s.host = none) (hl : s.cfg.legal = true)
    (hp : s.prog = []) : core.run (4 * (reconcileCommands c).length + 1) (s.entered c) = .next (s.reconciled c) := by
  have hconclude : step { s.transactions (reconcileCommands c) with host := some [] } = .next (s.reconciled c) := by
    rw [← concluded_transactions c hh]
    exact step_of_no_command_left (s.transactions_seq _ hs) ((s.transactions_prog _).trans hp) rfl
  exact (run_add_of_run (core_run_commands _ hs hl hp) 1).trans (run_succ_of_step (M := core) hconclude 0)

/-- Entered in `Idle` as the one offer, the Reconciler ends where the macro ends (R58, R196). -/
theorem core_run_reconcile (c : Option HostCommand) (hs : s.seq = .idle) (hh : s.host = none) (hl : s.cfg.legal = true)
    (hp : s.prog = [.reconcile c]) :
    core.run (2 + 4 * (reconcileCommands c).length) s = .next (State.reconciled { s with prog := [] } c) := by
  have henter : step s = .next (State.entered { s with prog := [] } c) := by
    rw [step_of_reconcile hp, if_pos ⟨hs, hh⟩]
  rw [Nat.add_comm]
  exact (run_succ_of_step (M := core) henter _).trans (core_run_entered c hs hh hl rfl)

/-- After the macro in `Idle` with no offer left, the run is over (R161). -/
theorem reconciled_final (c : Option HostCommand) (hs : s.seq = .idle) (hh : s.host = none) (hp : s.prog = []) :
    (s.reconciled c).final = true := by
  simp [State.final, State.reconciled, State.transactions_seq s _ hs, hh, hp]

end Sys2Proof.Machine

namespace Sys2Proof

open Machine

/-- Settles O56: the run of the Reconciler entered alone is `core_run_reconcile`; what may fall between its steps is said by
the lemmas about a step with one offer or none, from `step_of_response` on. -/
theorem reconcileStepwise : Obligations.ReconcileStepwise := by
  unfold Obligations.ReconcileStepwise
  refine ⟨fun c s hs hh hl hp => ?_, fun s ws rest hh => ⟨?_, ?_, ?_, ?_, ?_⟩⟩
  · exact ⟨_, core_run_reconcile c hs hh hl hp, execReconcile_of_idle c hs hl, reconciled_final c hs hh rfl⟩
  · exact fun bs hp => step_of_response hp
  · exact fun w hp => step_of_cmdWord_wait hh hp
  · exact fun hp => ⟨_, step_of_reset hp, rfl, rfl, rfl, rfl, rfl⟩
  · rintro hs hp rfl
    exact step_of_no_command_left hs hp hh
  · rintro w us hs hp rfl
    exact step_of_next_command hs hp hh

end Sys2Proof
end

section
/-! SUPPORT. The encodings (30_encoding.md sections 2 to 4, R62 to R66): the decoder and the encoder undo each other on the
command words, on the requests and on the responses. -/

namespace Sys2Proof.Machine

variable {i : Instr} {o : Offer} {bs : List Byte}

/-! ### Requests (R62, R63) -/

theorem decodeRequest_read (slave : Byte) (a b c : Word) :
    decodeRequest (fieldsBody slave fcRead a b ++ trailer c) = .instr (.reqFc03 slave a b c) := by
  simp [fieldsBody, fieldBytes, trailer, decodeRequest]

theorem decodeRequest_write (slave : Byte) (a b c : Word) :
    decodeRequest (fieldsBody slave fcWrite a b ++ trailer c) = .instr (.reqFc06 slave a b c) := by
  have hne : fcWrite ≠ fcRead := by decide
  simp [fieldsBody, fieldBytes, trailer, decodeRequest, hne]

/-- What the decoder reads from a request is encoded by the same bytes. -/
theorem encode_of_decodeRequest (h : decodeRequest bs = .instr i) : encode i = some (.request bs) := by
  unfold decodeRequest at h
  split at h
  · split at h
    next hf => cases h; simp [encode, fieldsBody, fieldBytes, trailer, hf]
    · split at h
      next hf => cases h; simp [encode, fieldsBody, fieldBytes, trailer, hf]
      · cases h
  · cases h

/-! ### Responses (R64, R65) -/

theorem decodeResponse_fields (slave function : Byte) (a b c : Word) :
    decodeResponse (fieldsBody slave function a b ++ trailer c) = .instr (.rspFc06 slave function a b c) := by
  simp [fieldsBody, fieldBytes, trailer, decodeResponse]

/-- A response of `5 + 2*q` bytes is never one of 8: its length is odd. -/
theorem decodeResponse_of_even (slave function n : Byte) (tail : List Byte) (heven : tail.length % 2 = 0)
    (htwo : 2 ≤ tail.length) :
    decodeResponse (slave :: function :: n :: tail) =
      .instr (.rspFc03 slave function n (bytesRegisters (allButTrailer tail)) (receivedCrc tail)) := by
  unfold decodeResponse
  split
  next heq =>
    simp only [List.cons.injEq] at heq
    obtain ⟨-, -, -, rfl⟩ := heq
    simp at heven
  next heq =>
    simp only [List.cons.injEq] at heq
    obtain ⟨rfl, rfl, rfl, rfl⟩ := heq
    rw [if_pos ⟨heven, htwo⟩]
  next hshort => exact absurd rfl (hshort slave function n tail)

theorem decodeResponse_registers (slave function n : Byte) (vs : List Word) (c : Word) :
    decodeResponse (registersBody slave function n vs ++ trailer c) = .instr (.rspFc03 slave function n vs c) := by
  have heven : (registerBytes vs ++ trailer c).length % 2 = 0 := by simp
  have htwo : 2 ≤ (registerBytes vs ++ trailer c).length := by simp
  have h := decodeResponse_of_even slave function n _ heven htwo
  rwa [allButTrailer_append, receivedCrc_append, bytesRegisters_registerBytes] at h

/-! ### Command words (R66) -/

/-- The bit `K` selects the command the word is the encoding of. -/
theorem decodeCmd_packCmd (k : Bool) (a b : Word) :
    decodeCmd (packCmd k a b) = if k then .xferWr a b else .xferRd a b := by
  simp [decodeCmd]

theorem encode_decodeCmd (w : CmdWord) : encode (decodeCmd w) = some (.cmdWord w) := by
  rw [← packCmd_fields w, decodeCmd_packCmd]
  cases cmdK w <;> rfl

/-! ### The two directions -/

theorem decode_of_encode (h : encode i = some o) : decode o = .instr i := by
  cases i with
  | reqFc03 slave start quantity crc => cases h; exact decodeRequest_read slave start quantity crc
  | reqFc06 slave address value crc => cases h; exact decodeRequest_write slave address value crc
  | rspFc06 slave function address value crc => cases h; exact decodeResponse_fields slave function address value crc
  | rspFc03 slave function n registers crc => cases h; exact decodeResponse_registers slave function n registers crc
  | xferRd start quantity => cases h; exact congrArg Decoded.instr (decodeCmd_packCmd false start quantity)
  | xferWr address value => cases h; exact congrArg Decoded.instr (decodeCmd_packCmd true address value)
  | _ => cases h

theorem encode_of_decode (h : decode o = .instr i) : encode i = some o ∨ o = .op i := by
  cases o with
  | cmdWord w => cases h; exact .inl (encode_decodeCmd w)
  | request bs => exact .inl (encode_of_decodeRequest h)
  | response bs => exact .inl (encode_of_decodeResponse h)
  | op j => cases h; exact .inr rfl
  | reset | reconcile | proceed => cases h

end Sys2Proof.Machine

namespace Sys2Proof

open Machine

/-- Settles O47, by the operations that have an encoding (`decode_of_encode`); the registers of a read response are read back
by induction over them (`bytesRegisters_registerBytes`). -/
theorem decodeEncode : Obligations.DecodeEncode := by
  unfold Obligations.DecodeEncode
  exact fun _ _ => decode_of_encode

/-- Settles O48, by the kinds of offers (`encode_of_decode`). -/
theorem encodeDecode : Obligations.EncodeDecode := by
  unfold Obligations.EncodeDecode
  exact fun _ _ => encode_of_decode

/-- Settles O46: each word and each frame is the encoding of the operation beside it, and is read back as such. -/
theorem exampleWordsDecode : Obligations.ExampleWordsDecode := by
  unfold Obligations.ExampleWordsDecode
  refine ⟨?_, ?_, ?_, ?_, ?_, ?_⟩
  · exact decode_of_encode (i := .xferWr 0x2000 2) rfl
  · exact decode_of_encode (i := .xferRd 0x2000 2) rfl
  · exact decode_of_encode (i := .reqFc03 1 0x2000 2 0xCBCF) rfl
  · exact decode_of_encode (i := .reqFc06 1 0x2001 250 0x8953) rfl
  · exact decode_of_encode (i := .rspFc06 1 6 0x9999 0x7777 0xAF10) rfl
  · exact decode_of_encode (i := .rspFc03 1 3 4 [2, 250] 0xB0DB) rfl

end Sys2Proof
end

section
/-! SUPPORT. The operations behind the encodings: a command word that is fetched (30_encoding.md section 4, R66; log 25), a
command as its four steps (30_encoding.md section 9, R76), a response that arrives (section 3, R64, R65; log 12). -/

namespace Sys2Proof.Machine

variable {s t : State} {i : Instr}

/-! ### A command word placed for the next fetch -/

theorem offerOfTableWord_cmdWord (w : CmdWord) : offerOfTableWord 40 w.toNat = .cmdWord w := by
  have hw : w.toNat < 2 ^ 33 := w.isLt
  rw [offerOfTableWord, if_pos ⟨Nat.le_refl 40, hw⟩, BitVec.ofNat_toNat, BitVec.setWidth_eq]

theorem decodeTableWord_cmdWord (w : CmdWord) : decodeTableWord 40 w.toNat = some (decodeCmd w) := by
  simp only [decodeTableWord, offerOfTableWord_cmdWord, decode]

/-- The host may move, so the step takes the command from the head of the offers. -/
theorem step_withFetchWord_cmdWord (w : CmdWord) (hs : s.seq = .idle) (hh : s.host = none) :
    step (s.withFetchWord 40 w.toNat) = exec (decodeCmd w) s := by
  have hp : (s.withFetchWord 40 w.toNat).prog = .cmdWord w :: s.prog := by
    rw [State.withFetchWord, offerOfTableWord_cmdWord]
  have ha : admission (decodeCmd w) (s.withFetchWord 40 w.toNat) = .run := by
    rw [admission_of_host (mover_decodeCmd w)]
    exact if_pos ⟨hs, hh⟩
  exact step_of_run (o := .cmdWord w) rfl hp ha

/-! ### The four steps, one after the other -/

theorem execAll_cons_of_next (h : exec i s = .next t) (is : List Instr) : execAll (i :: is) s = execAll is t := by
  rw [execAll, h]

theorem execTurnaround_of_sent (h : s.seq = .sent) : execTurnaround s = .next s.turnedAround := if_pos h

theorem execCollect_of_awaitingResponse (h : s.seq = .awaitingResponse) (hd : s.collectDefined = true) :
    execCollect s = .next s.collected := by
  rw [execCollect, if_pos h, if_pos hd]

theorem execRetire_of_done (h : s.seq = .decoded ∨ s.seq = .failed) : execRetire s = .next s.retired := if_pos h

theorem transfer_of_idle (w : CmdWord) (hs : s.seq = .idle) (hl : s.cfg.legal = true) :
    transfer w s = .next (s.transaction w) :=
  takenInIdle_of_idle _ _ hs hl

/-- In `Idle` each of the four steps is enabled when its turn comes, and they end where the whole command ends. -/
theorem execAll_fourSteps (w : CmdWord) (hs : s.seq = .idle) (hl : s.cfg.legal = true) :
    execAll [.issue w, .turnaround, .collect, .retire] s = transfer w s := by
  have hissue : exec (.issue w) s = .next (s.issued w) := execIssue_of_idle w hs hl
  have hturn : exec .turnaround (s.issued w) = .next (s.issued w).turnedAround := execTurnaround_of_sent (s.issued_seq w)
  have hcollect : exec .collect (s.issued w).turnedAround = .next (s.issued w).turnedAround.collected :=
    execCollect_of_awaitingResponse (by simp) (collectDefined_of_issued s w)
  have hretire : exec .retire (s.issued w).turnedAround.collected = .next (s.transaction w) :=
    execRetire_of_done (collected_seq_done _)
  rw [execAll_cons_of_next hissue, execAll_cons_of_next hturn, execAll_cons_of_next hcollect, execAll_cons_of_next hretire,
    transfer_of_idle w hs hl, execAll]

/-! ### A response that arrives -/

theorem registerBytes_eq_flatMap (vs : List Word) : registerBytes vs = vs.flatMap fun v => [hi8 v, lo8 v] := by
  induction vs with
  | nil => rfl
  | cons v vs ih => simp [registerBytes, ih]

end Sys2Proof.Machine

namespace Sys2Proof

open Machine

/-- Settles O37: both commands are `transfer` of their command word, and so are the four steps (`execAll_fourSteps`). -/
theorem commandIsFourSteps : Obligations.CommandIsFourSteps := by
  unfold Obligations.CommandIsFourSteps
  exact fun a b s hs hl => ⟨execAll_fourSteps (packCmd false a b) hs hl, execAll_fourSteps (packCmd true a b) hs hl⟩

/-- Settles O45: the table word is the command word itself, which the host may offer in this state. -/
theorem fetchedCommandRuns : Obligations.FetchedCommandRuns := by
  unfold Obligations.FetchedCommandRuns
  exact fun w s hs hh => ⟨decodeTableWord_cmdWord w, step_withFetchWord_cmdWord w hs hh⟩

/-- Settles O27: an operation encoded by a response is the arrival of its bytes (`exec_of_encode_response`). -/
theorem responseArrives : Obligations.ResponseArrives := by
  unfold Obligations.ResponseArrives
  constructor
  · intro slave function address value crc s
    exact (exec_of_encode_response rfl s).2
  · intro slave function byteCount vs crc s
    rw [← registerBytes_eq_flatMap]
    exact (exec_of_encode_response rfl s).2

end Sys2Proof
end

section
/-! SUPPORT. The arithmetic of the CRC (40_crc.md R92, R97, R98): the bit step is injective and linear, eight steps of a word
are its high byte moved down and eight steps of its low byte, and the printed table holds the eight steps of each byte. -/

namespace Sys2Proof.Machine

/-! ### Words as two bytes -/

theorem be16_eq_iff {h l h' l' : Byte} : be16 h l = be16 h' l' ↔ h = h' ∧ l = l' := by
  constructor
  · exact fun he => ⟨by simpa using congrArg hi8 he, by simpa using congrArg lo8 he⟩
  · rintro ⟨rfl, rfl⟩
    rfl

theorem zext16_eq_be16 (b : Byte) : zext16 b = be16 0 b := by simp [be16, zext16]

theorem zext16_injective : Function.Injective zext16 := fun b c h => by
  rw [zext16_eq_be16, zext16_eq_be16] at h
  exact (be16_eq_iff.1 h).2

theorem zext16_lo8_of_lt {v : Word} (h : v.toNat < 0x100) : zext16 (lo8 v) = v := by
  apply BitVec.eq_of_toNat_eq
  simp [zext16, lo8]
  omega

theorem be16_xor_zext16 (h l b : Byte) : be16 h l ^^^ zext16 b = be16 h (l ^^^ b) := by
  ext i hi
  by_cases h8 : i < 8
  · simp [be16, zext16, h8]
  · simp [be16, zext16, h8, BitVec.getLsbD_of_ge _ i (Nat.le_of_not_lt h8)]

theorem be16_ushiftRight_eight (h l : Byte) : be16 h l >>> 8 = zext16 h := by
  ext i hi
  by_cases h8 : i < 8
  · simp [be16, zext16, h8, show 8 + i < 16 by omega]
  · simp [be16, zext16, BitVec.getLsbD_of_ge h i (Nat.le_of_not_lt h8)]

theorem xor_zext16_eq (a : Word) (b : Byte) : a ^^^ zext16 b = be16 (hi8 a) (lo8 a ^^^ b) := by
  rw [← be16_xor_zext16, be16_hi8_lo8]

theorem ushiftRight_eight_eq (v : Word) : v >>> 8 = zext16 (hi8 v) := by
  rw [← be16_ushiftRight_eight (hi8 v) (lo8 v), be16_hi8_lo8]

/-! ### The bit step (R92) -/

theorem shiftN_eq_iterate (n : Nat) (a : Word) : shiftN n a = shift1^[n] a := by
  induction n generalizing a with
  | zero => rfl
  | succ n ih => exact ih (shift1 a)

theorem shift8_eq_iterate (a : Word) : shift8 a = shift1^[8] a := shiftN_eq_iterate 8 a

/-- What the bit shifted out feeds back. -/
def feedback (x : Bool) : Word := if x then crcFeedback else 0

theorem shift1_eq_feedback (a : Word) : shift1 a = (a >>> 1) ^^^ feedback (a.getLsbD 0) := by
  unfold shift1 feedback
  split <;> simp

/-- The bit shifted out comes back at the top. -/
theorem shift1_getLsbD_fifteen (a : Word) : (shift1 a).getLsbD 15 = a.getLsbD 0 := by
  rw [shift1_eq_feedback]
  cases a.getLsbD 0 <;> simp [feedback, crcFeedback]

theorem eq_of_getLsbD_zero_of_ushiftRight_one {a b : Word} (h0 : a.getLsbD 0 = b.getLsbD 0) (hs : a >>> 1 = b >>> 1) :
    a = b := by
  apply BitVec.eq_of_getLsbD_eq
  rintro (_ | i) -
  · exact h0
  · simpa [Nat.add_comm] using congrArg (BitVec.getLsbD · i) hs

theorem shift1_injective : Function.Injective shift1 := fun a b h => by
  have h0 : a.getLsbD 0 = b.getLsbD 0 := by rw [← shift1_getLsbD_fifteen, h, shift1_getLsbD_fifteen]
  refine eq_of_getLsbD_zero_of_ushiftRight_one h0 ?_
  rw [shift1_eq_feedback, shift1_eq_feedback, h0] at h
  exact (BitVec.xor_left_inj _).1 h

theorem feedback_xor (x y : Bool) : feedback (x ^^ y) = feedback x ^^^ feedback y := by
  cases x <;> cases y <;> rfl

theorem shift1_xor (a b : Word) : shift1 (a ^^^ b) = shift1 a ^^^ shift1 b := by
  simp only [shift1_eq_feedback, BitVec.getLsbD_xor, feedback_xor, BitVec.ushiftRight_xor_distrib]
  ac_rfl

theorem shift1_of_even {a : Word} (h : a.getLsbD 0 = false) : shift1 a = a >>> 1 := by
  rw [shift1, h]
  rfl

theorem shiftN_xor (n : Nat) (a b : Word) : shiftN n (a ^^^ b) = shiftN n a ^^^ shiftN n b := by
  induction n generalizing a b with
  | zero => rfl
  | succ n ih => simp only [shiftN, shift1_xor, ih]

/-- While zeros are shifted out nothing is fed back. -/
theorem shiftN_of_low_bits_zero (n : Nat) (a : Word) (h : ∀ i < n, a.getLsbD i = false) : shiftN n a = a >>> n := by
  induction n generalizing a with
  | zero => simp [shiftN]
  | succ n ih =>
    rw [shiftN, shift1_of_even (h 0 (by omega)), ih, ← BitVec.shiftRight_add, Nat.add_comm]
    intro i hi
    simpa [Nat.add_comm] using h (i + 1) (by omega)

/-! ### Eight steps -/

theorem shift8_injective : Function.Injective shift8 := by
  rw [funext shift8_eq_iterate]
  exact shift1_injective.iterate 8

theorem shift8_xor (a b : Word) : shift8 (a ^^^ b) = shift8 a ^^^ shift8 b := shiftN_xor 8 a b

/-- A byte in the high half is moved down, and nothing is fed back. -/
theorem shift8_be16_zero (h : Byte) : shift8 (be16 h 0) = zext16 h := by
  rw [shift8, shiftN_of_low_bits_zero, be16_ushiftRight_eight]
  intro i hi
  simp [be16, zext16, hi]

theorem shift8_be16 (h l : Byte) : shift8 (be16 h l) = zext16 h ^^^ shift8 (zext16 l) := by
  rw [← shift8_be16_zero h, ← shift8_xor, be16_xor_zext16, show 0 ^^^ l = l from BitVec.zero_xor]

/-- The update by the two bytes of the accumulator (R97). -/
theorem crcUpd_eq (a : Word) (b : Byte) : crcUpd a b = (a >>> 8) ^^^ shift8 (zext16 (lo8 a ^^^ b)) := by
  rw [crcUpd, xor_zext16_eq, shift8_be16, ushiftRight_eight_eq]

/-- Of the eight steps of a byte, only those of the byte 0 have a zero high byte (R98): a zero high byte is what eight steps
of a word with a zero low byte leave. -/
theorem shift8_zext16_lt_iff (b : Byte) : (shift8 (zext16 b)).toNat < 0x100 ↔ b = 0 := by
  constructor
  · intro h
    have he : shift8 (be16 0 b) = shift8 (be16 (lo8 (shift8 (zext16 b))) 0) := by
      rw [shift8_be16_zero, zext16_lo8_of_lt h, zext16_eq_be16]
    exact (be16_eq_iff.1 (shift8_injective he)).2
  · rintro rfl
    decide

/-! ### The printed table (R98) -/

theorem crcTable_eq_map : crcTable = (List.range 256).map fun i => shift8 (BitVec.ofNat 16 i) := by decide +kernel

theorem crcTable_length : crcTable.length = 256 := by simp [crcTable_eq_map]

theorem crcTable_getD {i : Nat} (hi : i < 256) : crcTable.getD i 0 = shift8 (BitVec.ofNat 16 i) := by
  simp [crcTable_eq_map, hi]

theorem crcTable_nodup : crcTable.Nodup := by
  rw [crcTable_eq_map]
  refine List.nodup_range.map_on fun i hi j hj h => ?_
  have hij : i % 2 ^ 16 = j % 2 ^ 16 := congrArg BitVec.toNat (shift8_injective h)
  rw [List.mem_range] at hi hj
  omega

theorem zext16_eq_ofNat (b : Byte) : zext16 b = BitVec.ofNat 16 b.toNat := (BitVec.ofNat_toNat 16 b).symm

theorem crcTable_getD_lt_iff {i : Nat} (hi : i < 256) : (crcTable.getD i 0).toNat < 0x100 ↔ i = 0 := by
  have hb : zext16 (BitVec.ofNat 8 i) = BitVec.ofNat 16 i := by simp [zext16_eq_ofNat, Nat.mod_eq_of_lt hi]
  rw [crcTable_getD hi, ← hb, shift8_zext16_lt_iff]
  refine ⟨fun h => ?_, fun h => by rw [h]; rfl⟩
  simpa [Nat.mod_eq_of_lt hi] using congrArg BitVec.toNat h

/-- The table-driven update is the bitwise one (R97). -/
theorem crcUpdTable_eq (a : Word) (b : Byte) : crcUpdTable a b = crcUpd a b := by
  rw [crcUpdTable, crcTable_getD (lo8 a ^^^ b).isLt, crcUpd_eq, zext16_eq_ofNat]

end Sys2Proof.Machine

namespace Sys2Proof

open Machine

/-- Settles O1: the bit step is the formula of R92 as the model writes it, and its recursion is the iterate. -/
theorem shiftSteps : Obligations.ShiftSteps := by
  unfold Obligations.ShiftSteps
  exact fun a => ⟨rfl, by simp, shift8_eq_iterate a⟩

/-- Settles O7: eight steps of a word by its two bytes (`crcUpd_eq`); the table's entries are distinct because the steps are
injective, and only one is below 0x0100 (`shift8_zext16_lt_iff`). -/
theorem tableEqualsBitwise : Obligations.TableEqualsBitwise := by
  unfold Obligations.TableEqualsBitwise
  refine ⟨fun a b => ⟨?_, (crcUpdTable_eq a b).symm⟩, crcTable_length, crcTable_nodup,
    fun i hi => ⟨crcTable_getD hi, crcTable_getD_lt_iff hi⟩⟩
  have hlow : lo8 (a ^^^ zext16 b) = lo8 a ^^^ b := by rw [xor_zext16_eq, lo8_be16]
  rw [← shift8_eq_iterate, ← shift8_eq_iterate]
  exact (crcUpd_eq a b).trans (by rw [← hlow]; rfl)

end Sys2Proof
end

section
/-! SUPPORT. The CRC of a sequence (40_crc.md R96, R101 to R103): the fold is injective in the accumulator and in each byte, so
a frame passes the check exactly when its own CRC is zero, and one changed byte is found. -/

namespace Sys2Proof.Machine

/-! ### The update and the fold -/

theorem crcUpd_left_injective (b : Byte) : Function.Injective (crcUpd · b) := fun _ _ h =>
  (BitVec.xor_left_inj _).1 (shift8_injective h)

theorem crcUpd_right_injective (a : Word) : Function.Injective (crcUpd a) := fun _ _ h =>
  zext16_injective ((BitVec.xor_right_inj _).1 (shift8_injective h))

theorem foldl_crcUpd_injective (bs : List Byte) : Function.Injective fun a => bs.foldl crcUpd a := by
  induction bs with
  | nil => exact Function.injective_id
  | cons b bs ih => exact ih.comp (crcUpd_left_injective b)

/-- One byte changed changes the fold: the two updates differ, and every later one keeps them apart. -/
theorem foldl_crcUpd_set_ne (bs : List Byte) (i : Nat) (b : Byte) (a : Word) (hi : i < bs.length) (hb : byteAt bs i ≠ b) :
    (bs.set i b).foldl crcUpd a ≠ bs.foldl crcUpd a := by
  induction bs generalizing i a with
  | nil => simp at hi
  | cons x xs ih =>
    cases i with
    | zero => exact fun h => hb (crcUpd_right_injective a (foldl_crcUpd_injective xs h)).symm
    | succ i => exact ih i (crcUpd a x) (by simpa using hi) (by simpa [byteAt] using hb)

theorem crc16_set_ne {bs : List Byte} {i : Nat} {b : Byte} (hi : i < bs.length) (hb : byteAt bs i ≠ b) :
    crc16 (bs.set i b) ≠ crc16 bs :=
  foldl_crcUpd_set_ne bs i b crcInitial hi hb

/-! ### The residue (R102) -/

/-- The update leaves zero only when the byte is the whole accumulator. -/
theorem crcUpd_eq_zero_iff (a : Word) (b : Byte) : crcUpd a b = 0 ↔ a = zext16 b := by
  have hz : shift8 0 = 0 := rfl
  rw [crcUpd, ← hz, shift8_injective.eq_iff]
  exact BitVec.xor_eq_zero_iff

/-- An update leaves a byte only by moving it down from the high half. -/
theorem crcUpd_eq_zext16_iff (c : Word) (t0 t1 : Byte) : crcUpd c t0 = zext16 t1 ↔ t0 = lo8 c ∧ t1 = hi8 c := by
  rw [crcUpd, xor_zext16_eq, ← shift8_be16_zero, shift8_injective.eq_iff, be16_eq_iff, and_comm]
  exact and_congr (BitVec.xor_eq_zero_iff.trans eq_comm) eq_comm

theorem crc16_append_two (s : List Byte) (t0 t1 : Byte) : crc16 (s ++ [t0, t1]) = crcUpd (crcUpd (crc16 s) t0) t1 := by
  simp [crc16]

/-- A sequence followed by a trailer has CRC zero exactly when the trailer is its own CRC (R102). -/
theorem crc16_append_eq_zero_iff (s : List Byte) (t0 t1 : Byte) :
    crc16 (s ++ [t0, t1]) = 0 ↔ t0 = lo8 (crc16 s) ∧ t1 = hi8 (crc16 s) := by
  rw [crc16_append_two, crcUpd_eq_zero_iff, crcUpd_eq_zext16_iff]

/-- The check that a decoder makes is the residue (R102). -/
theorem crcOk_iff_crc16_eq_zero {raw : List Byte} (h : 2 ≤ raw.length) : crcOk raw = true ↔ crc16 raw = 0 := by
  rw [eq_append_trailer raw h, crcOk_append, trailer, crc16_append_eq_zero_iff, beq_iff_eq]
  constructor
  · intro hc; rw [hc]; exact ⟨rfl, rfl⟩
  · rintro ⟨hl, hh⟩
    rw [← be16_hi8_lo8 (crc16 _), ← hl, ← hh, be16_hi8_lo8]

/-- In a frame that passes the check, one changed byte is found (R103). -/
theorem crcOk_set_eq_false {raw : List Byte} {i : Nat} {b : Byte} (hlen : 2 ≤ raw.length) (hok : crcOk raw = true)
    (hi : i < raw.length) (hb : byteAt raw i ≠ b) : crcOk (raw.set i b) = false := by
  rw [Bool.eq_false_iff, Ne, crcOk_iff_crc16_eq_zero (by rwa [List.length_set])]
  rw [crcOk_iff_crc16_eq_zero hlen] at hok
  exact hok ▸ crc16_set_ne hi hb

/-! ### The decoders on a frame that fails the check (R128, R135) -/

theorem decodeRead_of_crcOk_eq_false {raw : List Byte} (h : crcOk raw = false) (q : Word) :
    decodeRead raw q = .failed .crcMismatch := by
  simp [decodeRead, h]

theorem decodeWrite_of_crcOk_eq_false {raw : List Byte} (h : crcOk raw = false) (hlen : raw.length = 8) :
    decodeWrite raw = .failed .crcMismatch := by
  simp [decodeWrite, h, hlen]

theorem execDecRd_of_le {raw : List Byte} {q : Word} (h : 5 + 2 * q.toNat ≤ raw.length) (s : State) :
    execDecRd raw q s = .next ((s.withAcc (recomputedCrc raw)).withOut (.decoded (decodeRead raw q))) :=
  if_pos (decide_eq_true h)

end Sys2Proof.Machine

namespace Sys2Proof

open Machine

/-- Settles O8: the last two updates leave zero only when each byte cancels what it meets (`crcUpd_eq_zext16_iff`). -/
theorem crcResidue : Obligations.CrcResidue := by
  unfold Obligations.CrcResidue
  exact crc16_append_eq_zero_iff

/-- Settles O9: the appended bytes are a trailer, and the parts of a body with a trailer are known. -/
theorem crcRoundTrip : Obligations.CrcRoundTrip := by
  unfold Obligations.CrcRoundTrip
  rintro b _ rfl
  exact ⟨by rw [← trailer, crcOk_append, beq_self_eq_true], receivedCrc_append b (crc16 b),
    congrArg crc16 (allButTrailer_append b (crc16 b))⟩

/-- Settles O10: the changed frame fails the check (`crcOk_set_eq_false`), and both decoders report that first. -/
theorem oneByteErrorFound : Obligations.OneByteErrorFound := by
  unfold Obligations.OneByteErrorFound
  intro raw i b hlen hok hi hb
  have hbad : crcOk (raw.set i b) = false := crcOk_set_eq_false hlen hok hi hb
  refine ⟨hbad, fun q s hq => ?_, fun s h8 => ?_⟩
  · exact ⟨_, execDecRd_of_le (by rwa [List.length_set]) s, by rw [State.withOut_out, decodeRead_of_crcOk_eq_false hbad]⟩
  · exact ⟨_, rfl, by rw [State.withOut_out, decodeWrite_of_crcOk_eq_false hbad (by rwa [List.length_set])]⟩

end Sys2Proof
end

section
/-! SUPPORT. The operations of the CRC generator (40_crc.md R93 to R96), and what the other units leave in its accumulator
(R90, R116; logs 13, 14). -/

namespace Sys2Proof.Machine

variable {s t : State}

/-- The update, in the words of R94. -/
theorem crcUpd_eq_iterate (a : Word) (b : Byte) : crcUpd a b = shift1^[8] (a ^^^ b.setWidth 16) :=
  shift8_eq_iterate (a ^^^ zext16 b)

theorem crc16_eq_foldl_iterate (bs : List Byte) :
    crc16 bs = bs.foldl (fun a b => shift1^[8] (a ^^^ b.setWidth 16)) 0xFFFF#16 := by
  simp only [← crcUpd_eq_iterate]
  rfl

/-- The updates of a byte sequence, one operation a byte, fold them into `ACC`. -/
theorem execAll_map_crcUpd_append (bs : List Byte) (is : List Instr) (s : State) :
    execAll (bs.map Instr.crcUpd ++ is) s = execAll is (s.withAcc (bs.foldl crcUpd s.acc)) := by
  induction bs generalizing s with
  | nil => rfl
  | cons b bs ih =>
    have hupd : exec (.crcUpd b) s = .next (s.withAcc (crcUpd s.acc b)) := rfl
    rw [List.map_cons, List.cons_append, execAll_cons_of_next hupd, ih]
    rfl

theorem accAfterDecodeWrite_eq (raw : List Byte) (a : Word) :
    accAfterDecodeWrite raw a = if raw.length = 8 then crc16 (raw.take 6) else a := by
  unfold accAfterDecodeWrite
  split
  next h => rw [recomputedCrc, allButTrailer, h]
  · rfl

theorem execCollect_eq_next (h : execCollect s = .next t) : t = s.collected := by
  unfold execCollect at h
  split at h
  · split at h
    · exact (Host.Outcome.next.inj h).symm
    · cases h
  · cases h

theorem collected_acc_of_short (h : s.collected.rxlen < s.collected.explen) : s.collected.acc = s.acc := by
  simp only [State.collected_rxlen, State.received_rxlen, State.collected_explen, State.received_explen] at h
  rw [State.collected_acc, collectedAcc, if_pos h]

end Sys2Proof.Machine

namespace Sys2Proof

open Machine

/-- Settles O2, by the iterated form of the update. -/
theorem crcUpdEffect : Obligations.CrcUpdEffect := by
  unfold Obligations.CrcUpdEffect
  exact fun b s => congrArg (fun a => Host.Outcome.next (s.withAcc a)) (crcUpd_eq_iterate s.acc b)

/-- Settles O3: `CRC.INIT` is the write of the initial value. -/
theorem crcInitEffect : Obligations.CrcInitEffect := by
  unfold Obligations.CrcInitEffect
  exact fun _ => rfl

/-- Settles O5, by the iterated form of the update under the fold. -/
theorem crc16Effect : Obligations.Crc16Effect := by
  unfold Obligations.Crc16Effect
  intro bs s
  rw [← crc16_eq_foldl_iterate]
  rfl

/-- Settles O6, by induction over the bytes (`execAll_map_crcUpd_append`). -/
theorem crc16Expansion : Obligations.Crc16Expansion := by
  unfold Obligations.Crc16Expansion
  intro bs s
  have hinit : exec .crcInit s = .next (s.withAcc crcInitial) := rfl
  rw [execAll_cons_of_next hinit, execAll_map_crcUpd_append]
  rfl

/-- Settles O4, unit by unit: what a completed operation is gives its `ACC`; a short read is the first case of `collectedAcc`. -/
theorem accumulatorIsScratch : Obligations.AccumulatorIsScratch := by
  unfold Obligations.AccumulatorIsScratch
  refine ⟨fun s => rfl, ?_, ?_, ?_, ?_, ?_⟩
  · rintro x a b s t ⟨⟩
    rfl
  · rintro x a b s t ⟨⟩
    rfl
  · intro raw q s t h
    rw [execDecRd_eq_next h]
    rfl
  · rintro raw s t ⟨⟩
    exact accAfterDecodeWrite_eq raw s.acc
  · intro s t h
    rw [execCollect_eq_next h]
    exact collected_acc_of_short

end Sys2Proof
end

section
/-! SUPPORT. The frame encoder (41_frame_encoder.md R113 to R116, R119): a request frame holds its operands, and the sealed
read response holds its register values where the decoder looks for them. -/

namespace Sys2Proof.Machine

variable {slave slave' : Byte} {a a' b b' : Word}

/-! ### A request frame is read back (R115, R116) -/

theorem decodeRequest_encodeRead (slave : Byte) (a b : Word) :
    decodeRequest (encodeRead slave a b) = .instr (.reqFc03 slave a b (crc16 (readRequestBody slave a b))) :=
  decodeRequest_read slave a b _

theorem decodeRequest_encodeWrite (slave : Byte) (a b : Word) :
    decodeRequest (encodeWrite slave a b) = .instr (.reqFc06 slave a b (crc16 (writeRequestBody slave a b))) :=
  decodeRequest_write slave a b _

theorem encodeRead_inj (h : encodeRead slave a b = encodeRead slave' a' b') : slave = slave' ∧ a = a' ∧ b = b' := by
  have hd := congrArg decodeRequest h
  rw [decodeRequest_encodeRead, decodeRequest_encodeRead] at hd
  cases hd
  exact ⟨rfl, rfl, rfl⟩

theorem encodeWrite_inj (h : encodeWrite slave a b = encodeWrite slave' a' b') : slave = slave' ∧ a = a' ∧ b = b' := by
  have hd := congrArg decodeRequest h
  rw [decodeRequest_encodeWrite, decodeRequest_encodeWrite] at hd
  cases hd
  exact ⟨rfl, rfl, rfl⟩

theorem encodeRead_ne_encodeWrite : encodeRead slave a b ≠ encodeWrite slave' a' b' := by
  intro h
  have hd := congrArg decodeRequest h
  rw [decodeRequest_encodeRead, decodeRequest_encodeWrite] at hd
  cases hd

/-! ### A sealed read response is decoded (R119) -/

@[simp] theorem crcOk_sealFrame (body : List Byte) : crcOk (sealFrame body) = true := by
  rw [sealFrame, crcOk_append, beq_self_eq_true]

/-- Register `i` lies in the bytes `2*i` and `2*i + 1`, high byte first. -/
theorem be16_byteAt_registerBytes (vs : List Word) (t : List Byte) (i : Nat) (hi : i < vs.length) :
    be16 (byteAt (registerBytes vs ++ t) (2 * i)) (byteAt (registerBytes vs ++ t) (2 * i + 1)) = vs[i] := by
  induction vs generalizing i with
  | nil => simp at hi
  | cons v vs ih =>
    cases i with
    | zero => exact be16_hi8_lo8 v
    | succ i => exact ih i (Nat.lt_of_succ_lt_succ hi)

/-- A decoder that looks behind the three bytes of the header finds the registers, whatever follows them (R131). -/
theorem responseRegisters_registersBody (slave function n : Byte) (vs : List Word) (t : List Byte) :
    responseRegisters (registersBody slave function n vs ++ t) vs.length = vs := by
  have hskip (i : Nat) : byteAt (registersBody slave function n vs ++ t) (3 + i) = byteAt (registerBytes vs ++ t) i := by
    rw [Nat.add_comm]
    rfl
  refine List.ext_getElem (by simp [responseRegisters]) fun i hi hv => ?_
  simp only [responseRegisters, List.getElem_map, List.getElem_range]
  rw [show 4 + 2 * i = 3 + (2 * i + 1) by omega, hskip, hskip]
  exact be16_byteAt_registerBytes vs t i hv

/-- Up to 127 registers, the byte count fits its byte and the quantity its field: the sealed response decodes to its values. -/
theorem decodeRead_sealFrame_registersBody (slave function : Byte) {vs : List Word} (h : vs.length ≤ 127) :
    decodeRead (sealFrame (registersBody slave function (BitVec.ofNat 8 (2 * vs.length)) vs)) (BitVec.ofNat 16 vs.length) =
      .readOk vs := by
  have hq : (BitVec.ofNat 16 vs.length).toNat = vs.length := Nat.mod_eq_of_lt (by omega)
  have hn : (BitVec.ofNat 8 (2 * vs.length)).toNat = 2 * vs.length := Nat.mod_eq_of_lt (by omega)
  have hcount : byteCountOk (sealFrame (registersBody slave function (BitVec.ofNat 8 (2 * vs.length)) vs))
      (BitVec.ofNat 16 vs.length) = true := by
    rw [byteCountOk, hq, beq_iff_eq]
    exact hn
  rw [decodeRead, if_pos (crcOk_sealFrame _), if_pos hcount, hq, sealFrame, responseRegisters_registersBody]

/-- The sealed response is long enough for the precondition of `DEC.RD` (R126). -/
theorem sealFrame_registersBody_length_ge (slave function n : Byte) (vs : List Word) :
    5 + 2 * (BitVec.ofNat 16 vs.length).toNat ≤ (sealFrame (registersBody slave function n vs)).length := by
  have hq : (BitVec.ofNat 16 vs.length).toNat ≤ vs.length := Nat.mod_le _ _
  rw [sealFrame_length, registersBody_length]
  omega

end Sys2Proof.Machine

namespace Sys2Proof

open Machine

/-- Settles O13: the request decoder gives back the operands of either frame, under two different operations. -/
theorem frameDeterminesOperands : Obligations.FrameDeterminesOperands := by
  unfold Obligations.FrameDeterminesOperands
  exact fun slave slave' a a' b b' => ⟨encodeRead_length slave a b, encodeWrite_length slave a b, encodeRead_inj,
    encodeWrite_inj, encodeRead_ne_encodeWrite⟩

/-- Settles O14: the response is within the precondition of `DEC.RD`, and decodes to its values
(`decodeRead_sealFrame_registersBody`). -/
theorem readResponseDecodes : Obligations.ReadResponseDecodes := by
  unfold Obligations.ReadResponseDecodes
  intro slave start vs s h
  refine ⟨_, _, rfl, execDecRd_of_le (sealFrame_registersBody_length_ge slave 0x03 _ vs) _, ?_⟩
  rw [← decodeRead_sealFrame_registersBody slave 0x03 h]
  rfl

/-- Settles O11: the encoder is one write of `ACC` and one of the result, and its frame the body with its CRC. -/
theorem encRdEffect : Obligations.EncRdEffect := by
  unfold Obligations.EncRdEffect
  exact fun slave start quantity s => ⟨_, rfl, rfl⟩

/-- Settles O12: the encoder is one write of `ACC` and one of the result, and its frame the body with its CRC. -/
theorem encWrEffect : Obligations.EncWrEffect := by
  unfold Obligations.EncWrEffect
  exact fun slave address value s => ⟨_, rfl, rfl⟩

end Sys2Proof
end

section
/-! SUPPORT. The frame decoder (42_frame_decoder.md R126 to R141): the checks in their order, and what a success says of the
input. -/

namespace Sys2Proof.Machine

variable {raw : List Byte} {q : Word} {s t : State}

/-! ### The two checks (R127, R130) -/

theorem crcOk_iff : crcOk raw = true ↔ crc16 (allButTrailer raw) = receivedCrc raw := beq_iff_eq

theorem byteCountOk_iff : byteCountOk raw q = true ↔ (byteAt raw 2).toNat = 2 * q.toNat := beq_iff_eq

/-- In a sequence of eight bytes the CRC is that of the first six, and the last two carry it. -/
theorem crcOk_iff_of_length (h : raw.length = 8) :
    crcOk raw = true ↔ crc16 (raw.take 6) = be16 (byteAt raw 7) (byteAt raw 6) := by
  rw [crcOk_iff, allButTrailer, receivedCrc, h]

/-- A frame that passes the check is its own body, sealed. -/
theorem eq_sealFrame_of_crcOk (hlen : 2 ≤ raw.length) (hok : crcOk raw = true) : raw = sealFrame (allButTrailer raw) := by
  rw [sealFrame, crcOk_iff.1 hok]
  exact eq_append_trailer raw hlen

/-- Twice a quantity of 128 or more fits no byte (R133). -/
theorem byteCountOk_eq_false_of_le (raw : List Byte) (h : 128 ≤ q.toNat) : byteCountOk raw q = false := by
  have hbyte : (byteAt raw 2).toNat < 256 := (byteAt raw 2).isLt
  rw [Bool.eq_false_iff, Ne, byteCountOk_iff]
  omega

/-! ### The registers (R131) -/

/-- The registers a decoder takes are the bytes behind the header, two each. -/
theorem registerBytes_responseRegisters {n : Nat} (h : 3 + 2 * n ≤ raw.length) :
    registerBytes (responseRegisters raw n) = (raw.drop 3).take (2 * n) := by
  obtain ⟨slave, function, count, rest, rfl⟩ : ∃ slave function count rest, raw = slave :: function :: count :: rest := by
    match raw, h with
    | slave :: function :: count :: rest, _ => exact ⟨slave, function, count, rest, rfl⟩
    | [], h | [_], h | [_, _], h => simp only [List.length_cons, List.length_nil] at h; omega
  have hlen : (rest.take (2 * n)).length = 2 * n := List.length_take_of_le (by simp at h; omega)
  obtain ⟨vs, hvs⟩ : ∃ vs, registerBytes vs = rest.take (2 * n) :=
    ⟨_, registerBytes_bytesRegisters _ (by rw [hlen, Nat.mul_mod_right])⟩
  have hn : vs.length = n := by rw [← hvs, registerBytes_length] at hlen; omega
  have hraw : slave :: function :: count :: rest = registersBody slave function count vs ++ rest.drop (2 * n) := by
    simp [registersBody, hvs]
  have hregs : responseRegisters (slave :: function :: count :: rest) n = vs := by
    rw [hraw, ← hn, responseRegisters_registersBody]
  rw [hregs, hvs]
  rfl

theorem responseRegisters_getElem? {n i : Nat} (hi : i < n) :
    (responseRegisters raw n)[i]? = some (be16 (byteAt raw (3 + 2 * i)) (byteAt raw (4 + 2 * i))) := by
  simp [responseRegisters, hi]

/-! ### The results, check by check (R128, R132, R135) -/

theorem decodeRead_of_byteCountOk_eq_false (hok : crcOk raw = true) (hcount : byteCountOk raw q = false) :
    decodeRead raw q = .failed .unexpectedByteCount := by
  simp [decodeRead, hok, hcount]

theorem decodeRead_eq_readOk_iff {vs : List Word} :
    decodeRead raw q = .readOk vs ↔
      crcOk raw = true ∧ byteCountOk raw q = true ∧ responseRegisters raw q.toNat = vs := by
  rw [decodeRead]
  cases crcOk raw with
  | false => simp
  | true => cases byteCountOk raw q <;> simp

theorem decodeWrite_of_length_ne (h : raw.length ≠ 8) : decodeWrite raw = .failed .timeout := if_neg h

theorem decodeWrite_eq_writeOk_iff : decodeWrite raw = .writeOk ↔ raw.length = 8 ∧ crcOk raw = true := by
  rw [decodeWrite]
  by_cases h : raw.length = 8
  · cases crcOk raw <;> simp [h]
  · simp [h]

/-- Every sealed body of six bytes is an accepted write response (R137). -/
theorem decodeWrite_sealFrame {body : List Byte} (h : body.length = 6) : decodeWrite (sealFrame body) = .writeOk :=
  decodeWrite_eq_writeOk_iff.2 ⟨by rw [sealFrame_length, h], crcOk_sealFrame body⟩

/-! ### The operations -/

theorem le_length_of_execDecRd_eq_next (h : execDecRd raw q s = .next t) : 5 + 2 * q.toNat ≤ raw.length := by
  by_contra hlt
  rw [(execDecRd_refused_iff raw q s).2 (Nat.lt_of_not_le hlt)] at h
  cases h

/-- `DEC.RD` returns what the decoder makes of the response. -/
theorem exec_decRd_out {r : TransactionResult} (hlen : 5 + 2 * q.toNat ≤ raw.length) (h : decodeRead raw q = r) (s : State) :
    ∃ t, exec (.decRd raw q) s = .next t ∧ t.out = some (.decoded r) :=
  ⟨_, execDecRd_of_le hlen s, by rw [State.withOut_out, h]⟩

/-- `DEC.WR` returns what the decoder makes of the response. -/
theorem exec_decWr_out {r : TransactionResult} (h : decodeWrite raw = r) (s : State) :
    ∃ t, exec (.decWr raw) s = .next t ∧ t.out = some (.decoded r) :=
  ⟨_, rfl, by rw [State.withOut_out, h]⟩

theorem decodeRead_eq_of_exec {r : TransactionResult} (h : exec (.decRd raw q) s = .next t)
    (hout : t.out = some (.decoded r)) : decodeRead raw q = r := by
  rw [execDecRd_eq_next h, State.withOut_out] at hout
  cases hout
  rfl

theorem decodeWrite_eq_of_exec {r : TransactionResult} (h : exec (.decWr raw) s = .next t)
    (hout : t.out = some (.decoded r)) : decodeWrite raw = r := by
  cases h
  cases hout
  rfl

end Sys2Proof.Machine

namespace Sys2Proof

open Machine

/-- Settles O15: a sealed response decodes to its values under any slave and function byte, and six sealed bytes are an
accepted write response, whatever they are. -/
theorem contentNotExamined : Obligations.ContentNotExamined := by
  unfold Obligations.ContentNotExamined
  refine ⟨fun slave function vs s h => ?_, fun b0 b1 b2 b3 b4 b5 s => ?_, fun slave start quantity s => ?_⟩
  · exact exec_decRd_out (sealFrame_registersBody_length_ge slave function _ vs)
      (decodeRead_sealFrame_registersBody slave function h) s
  · exact exec_decWr_out (decodeWrite_sealFrame rfl) s
  · exact exec_decWr_out (decodeWrite_sealFrame (fieldsBody_length slave fcRead start quantity)) s

/-- Settles O18: the byte count never matches (`byteCountOk_eq_false_of_le`), and the CRC check comes before it. -/
theorem largeReadNeverOk : Obligations.LargeReadNeverOk := by
  unfold Obligations.LargeReadNeverOk
  intro raw q s hq hlen
  cases hok : crcOk raw with
  | false =>
    obtain ⟨t, ht, hout⟩ := exec_decRd_out hlen (decodeRead_of_crcOk_eq_false hok q) s
    exact ⟨t, ht, .inl hout⟩
  | true =>
    have hcount : byteCountOk raw q = false := byteCountOk_eq_false_of_le raw hq
    obtain ⟨t, ht, hout⟩ := exec_decRd_out hlen (decodeRead_of_byteCountOk_eq_false hok hcount) s
    exact ⟨t, ht, .inr hout⟩

/-- Settles O19: a success means that every check has passed; a frame that passes the CRC check is its own body sealed, and
the values are the bytes behind the header (`registerBytes_responseRegisters`). -/
theorem decoderGuarantees : Obligations.DecoderGuarantees := by
  unfold Obligations.DecoderGuarantees
  refine ⟨fun raw q vs s t h hout => ?_, fun raw s t h hout => ?_⟩
  · have hlen := le_length_of_execDecRd_eq_next h
    obtain ⟨hok, hcount, rfl⟩ := decodeRead_eq_readOk_iff.1 (decodeRead_eq_of_exec h hout)
    exact ⟨hlen, eq_sealFrame_of_crcOk (by omega) hok, byteCountOk_iff.1 hcount,
      registerBytes_responseRegisters (by omega)⟩
  · obtain ⟨hlen, hok⟩ := decodeWrite_eq_writeOk_iff.1 (decodeWrite_eq_of_exec h hout)
    have hseal : raw = sealFrame (raw.take (raw.length - 2)) := eq_sealFrame_of_crcOk (by omega) hok
    rw [hlen] at hseal
    exact ⟨hlen, hseal⟩

/-- Settles O20: the echo is six sealed bytes, and one changed byte fails the CRC check (`crcOk_set_eq_false`). -/
theorem writeEcho : Obligations.WriteEcho := by
  unfold Obligations.WriteEcho
  intro slave address value s
  refine ⟨exec_decWr_out (decodeWrite_sealFrame (fieldsBody_length slave fcWrite address value)) s, fun i x hi hx => ?_⟩
  have hlen := encodeWrite_length slave address value
  have hbad : crcOk ((encodeWrite slave address value).set i x) = false :=
    crcOk_set_eq_false (by omega) (crcOk_sealFrame _) (by omega) hx
  exact exec_decWr_out (decodeWrite_of_crcOk_eq_false hbad (by rwa [List.length_set])) s

/-- Settles O16, check by check: each premise is a check of the decoder or its failure. -/
theorem decRdEffect : Obligations.DecRdEffect := by
  unfold Obligations.DecRdEffect
  intro raw q s hlen
  refine ⟨_, _, execDecRd_of_le hlen s, rfl, fun hcrc => ?_, fun hcrc hcount => ?_, fun hcrc hcount => ?_⟩
  · exact decodeRead_of_crcOk_eq_false (Bool.eq_false_iff.2 (mt crcOk_iff.1 hcrc)) q
  · exact decodeRead_of_byteCountOk_eq_false (crcOk_iff.2 hcrc) (Bool.eq_false_iff.2 (mt byteCountOk_iff.1 hcount))
  · have hread := decodeRead_eq_readOk_iff.2 ⟨crcOk_iff.2 hcrc, byteCountOk_iff.2 hcount, rfl⟩
    exact ⟨_, hread, decodeRead_eq_readOk_length hread, fun i hi => responseRegisters_getElem? hi⟩

/-- Settles O17: the length, then the CRC of the first six of eight bytes (`crcOk_iff_of_length`). -/
theorem decWrEffect : Obligations.DecWrEffect := by
  unfold Obligations.DecWrEffect
  intro raw s
  refine ⟨_, _, rfl, rfl, decodeWrite_of_length_ne, fun hlen hcrc => ?_, fun hlen hcrc => ?_⟩
  · exact decodeWrite_of_crcOk_eq_false (Bool.eq_false_iff.2 (mt (crcOk_iff_of_length hlen).1 hcrc)) hlen
  · exact decodeWrite_eq_writeOk_iff.2 ⟨hlen, (crcOk_iff_of_length hlen).2 hcrc⟩

end Sys2Proof
end

section
/-! SUPPORT. The steps of the sequencer and what a command meets outside `Idle` (43_transaction_sequencer.md sections 1 and 2,
R146, R149, R151, R153). -/

namespace Sys2Proof.Machine

variable {s t u : State} {i : Instr} {o : Offer} {rest : List Offer}

/-! ### Where a step is enabled, and what it then answers -/

theorem turnedAround_of_sent (h : s.seq = .sent) : s.turnedAround = { s with seq := .awaitingResponse } := if_pos h

theorem turnedAround_of_ne_sent (h : s.seq ≠ .sent) : s.turnedAround = s := if_neg h

theorem retired_of_result {r : TransactionResult} (h : s.result = some r) :
    s.retired = { s with res := s.res ++ [r], seq := .idle } := by
  rw [State.retired, h, Option.toList_some]

theorem execTurnaround_eq_next (h : execTurnaround s = .next t) : s.seq = .sent ∧ t = s.turnedAround := by
  unfold execTurnaround at h
  split at h
  · exact ⟨‹_›, (Host.Outcome.next.inj h).symm⟩
  · cases h

theorem execRetire_eq_next (h : execRetire s = .next t) : (s.seq = .decoded ∨ s.seq = .failed) ∧ t = s.retired := by
  unfold execRetire at h
  split at h
  · exact ⟨‹_›, (Host.Outcome.next.inj h).symm⟩
  · cases h

theorem execTurnaround_fault_iff (s : State) : execTurnaround s = .fault .stepNotEnabled ↔ s.seq ≠ .sent := by
  by_cases h : s.seq = .sent <;> simp [execTurnaround, h]

/-- A refusal in `AwaitingResponse` is no fault. -/
theorem execCollect_fault_iff (s : State) : execCollect s = .fault .stepNotEnabled ↔ s.seq ≠ .awaitingResponse := by
  by_cases h : s.seq = .awaitingResponse
  · cases hd : s.collectDefined <;> simp [execCollect, h, hd]
  · simp [execCollect, h]

theorem execRetire_fault_iff (s : State) :
    execRetire s = .fault .stepNotEnabled ↔ s.seq ≠ .decoded ∧ s.seq ≠ .failed := by
  rw [← not_or]
  by_cases h : s.seq = .decoded ∨ s.seq = .failed <;> simp [execRetire, h]

theorem seq_of_execCollect_eq_next (h : execCollect s = .next t) : s.seq = .awaitingResponse := by
  by_contra hs
  rw [(execCollect_fault_iff s).2 hs] at h
  cases h

/-! ### A command outside `Idle` -/

theorem takenInIdle_of_ne_idle (o : Offer) (u : State) (h : s.seq ≠ .idle) : takenInIdle o u s = .next (s.hold o) :=
  if_neg h

theorem takenInIdle_eq_next (h : takenInIdle o u s = .next t) :
    (s.seq = .idle ∧ t = u) ∨ (s.seq ≠ .idle ∧ t = s.hold o) := by
  unfold takenInIdle at h
  split at h
  · split at h
    · exact .inl ⟨‹_›, (Host.Outcome.next.inj h).symm⟩
    · cases h
  · exact .inr ⟨‹_›, (Host.Outcome.next.inj h).symm⟩

/-- The machine's own next step with a transaction in flight is the sequencer's, and the offers stay. -/
theorem advance_prog_of_ne_idle (hs : s.seq ≠ .idle) (h : advance s = .next t) : t.prog = s.prog := by
  unfold advance at h
  split at h
  next hidle => exact absurd hidle hs
  · rw [(execTurnaround_eq_next h).2, State.turnedAround_prog]
  · rw [execCollect_eq_next h, State.collected_prog, State.received_prog]
  · rw [(execRetire_eq_next h).2, State.retired_prog]
  · rw [(execRetire_eq_next h).2, State.retired_prog]

/-- A move of the host waits while a transaction is in flight. -/
theorem step_of_host_of_ne_idle (hd : decode o = .instr i) (hm : mover i = .host) (hp : s.prog = o :: rest)
    (hs : s.seq ≠ .idle) : step s = advance s :=
  step_of_wait hd hp (by rw [admission_of_host hm, if_neg fun h => hs h.1])

/-! ### The transitions of `SEQ` -/

/-- `SEQ` is as before, or has made a transition of the table. -/
def SeqMoves (s t : State) : Prop := t.seq = s.seq ∨ Transition s.seq t.seq = true

/-- A command held leaves `SEQ` alone; taken, it is in `Idle` what the command makes of it. -/
theorem seqMoves_takenInIdle (h : takenInIdle o u s = .next t) (hu : s.seq = .idle → SeqMoves s u) : SeqMoves s t := by
  rcases takenInIdle_eq_next h with ⟨hs, rfl⟩ | ⟨-, rfl⟩
  · exact hu hs
  · exact .inl rfl

/-- A whole transaction ends in the state it began in. -/
theorem seqMoves_transfer {w : CmdWord} (h : transfer w s = .next t) : SeqMoves s t :=
  seqMoves_takenInIdle (transfer_eq w s ▸ h) fun hs => .inl hs.symm

theorem seqMoves_execReconcile {c : Option HostCommand} (h : execReconcile c s = .next t) : SeqMoves s t := by
  have hseq (hs : s.seq = .idle) : (s.reconciled c).seq = .idle := s.transactions_seq (reconcileCommands c) hs
  exact seqMoves_takenInIdle (execReconcile_eq c s ▸ h) fun hs => .inl ((hseq hs).trans hs.symm)

theorem seqMoves_execIssue {w : CmdWord} (h : execIssue w s = .next t) : SeqMoves s t :=
  seqMoves_takenInIdle (execIssue_eq w s ▸ h) fun hs => .inr (by rw [hs, State.issued_seq]; rfl)

theorem seqMoves_turnedAround (s : State) : SeqMoves s s.turnedAround := by
  by_cases hs : s.seq = .sent
  · exact .inr (by rw [turnedAround_of_sent hs, hs]; rfl)
  · exact .inl (by rw [turnedAround_of_ne_sent hs])

theorem seqMoves_execTurnaround (h : execTurnaround s = .next t) : SeqMoves s t :=
  (execTurnaround_eq_next h).2 ▸ seqMoves_turnedAround s

theorem seqMoves_execCollect (h : execCollect s = .next t) : SeqMoves s t := by
  have hs := seq_of_execCollect_eq_next h
  rw [execCollect_eq_next h]
  rcases collected_seq_done s with hd | hd <;> exact .inr (by rw [hs, hd]; rfl)

theorem seqMoves_execRetire (h : execRetire s = .next t) : SeqMoves s t := by
  obtain ⟨hs, rfl⟩ := execRetire_eq_next h
  rcases hs with hs | hs <;> exact .inr (by rw [hs]; rfl)

theorem seqMoves_unitFunction (hi : IsUnitFunction i) (h : exec i s = .next t) : SeqMoves s t := by
  obtain ⟨a, v, rfl⟩ := exec_unitFunction hi h
  exact .inl rfl

theorem seqMoves_exec (h : exec i s = .next t) : SeqMoves s t := by
  cases i with
  | reqFc03 x a b c => cases h; exact .inl (deviceReceive_seq s _)
  | reqFc06 x a b c => cases h; exact .inl (deviceReceive_seq s _)
  | rspFc06 x f a b c => cases h; exact .inl rfl
  | rspFc03 x f n vs c => cases h; exact .inl rfl
  | xferRd a b => exact seqMoves_transfer h
  | xferWr a b => exact seqMoves_transfer h
  | crc16 | crcInit | crcUpd | crcGet | encRd | encWr | decRd | decWr =>
    exact seqMoves_unitFunction (by simp [IsUnitFunction]) h
  | txWrite bs => cases h; exact .inl (emitTx_seq s bs)
  | waitTurn => cases h; exact seqMoves_turnedAround s
  | rxRead n => cases h; exact .inl (afterAnswer_seq s n)
  | issue w => exact seqMoves_execIssue h
  | turnaround => exact seqMoves_execTurnaround h
  | collect => exact seqMoves_execCollect h
  | retire => exact seqMoves_execRetire h
  | reconcile c => exact seqMoves_execReconcile h

end Sys2Proof.Machine

namespace Sys2Proof

open Machine

/-- Settles O22: both are the end of `Sent`, and `WAIT.TURN` is nothing elsewhere. -/
theorem turnaroundEffect : Obligations.TurnaroundEffect := by
  unfold Obligations.TurnaroundEffect
  intro s
  refine ⟨fun hs => ?_, fun hs => ?_, fun hs => ?_⟩
  · exact turnedAround_of_sent hs ▸ execTurnaround_of_sent hs
  · exact congrArg Host.Outcome.next (turnedAround_of_sent hs)
  · exact congrArg Host.Outcome.next (turnedAround_of_ne_sent hs)

/-- Settles O33: the step is enabled, and delivers the one result there is. -/
theorem retireEffect : Obligations.RetireEffect := by
  unfold Obligations.RetireEffect
  exact fun s r hs hr => retired_of_result hr ▸ execRetire_of_done hs

/-- Settles O34, step by step. -/
theorem stepsNotEnabled : Obligations.StepsNotEnabled := by
  unfold Obligations.StepsNotEnabled
  exact fun s => ⟨execTurnaround_fault_iff s, execCollect_fault_iff s, execRetire_fault_iff s⟩

/-- Settles O30: outside `Idle` each operation that starts a transaction holds its command (`takenInIdle_of_ne_idle`), and a
step with a command word at the head is the sequencer's own (`step_of_host_of_ne_idle`). -/
theorem commandHeld : Obligations.CommandHeld := by
  unfold Obligations.CommandHeld
  intro s hs
  refine ⟨fun a b => ?_, fun a b => ?_, fun w => ?_, fun c => ?_, fun w rest t hp ht => ?_⟩
  · exact takenInIdle_of_ne_idle _ (s.transaction (packCmd false a b)) hs
  · exact takenInIdle_of_ne_idle _ (s.transaction (packCmd true a b)) hs
  · exact takenInIdle_of_ne_idle _ (s.issued w) hs
  · exact takenInIdle_of_ne_idle _ (s.reconciled c) hs
  · rw [step_of_host_of_ne_idle (o := .cmdWord w) rfl (mover_decodeCmd w) hp hs] at ht
    exact advance_prog_of_ne_idle hs ht

/-- Settles O39, operation by operation (`seqMoves_exec`). -/
theorem seqTransitions : Obligations.SeqTransitions := by
  unfold Obligations.SeqTransitions
  exact fun i s t => seqMoves_exec

end Sys2Proof
end

section
/-! SUPPORT. The steps `issue` and `collect` as one assignment each (43_transaction_sequencer.md section 2, R150, R152): what
the adapter's side does is what it does without the registers of the core, and the result is R154's and R155's function form. -/

namespace Sys2Proof.Machine

variable {s u : State}

/-! ### The adapter's side does not depend on the registers of the core -/

theorem deviceReceive_of_congr (bs : List Byte) (hd : u.device = s.device) (hc : u.cfg.slave = s.cfg.slave)
    (hm : u.dev = s.dev) (hr : u.rx = s.rx) :
    deviceReceive bs u = { u with rx := (deviceReceive bs s).rx, dev := (deviceReceive bs s).dev } := by
  obtain ⟨hrx, hdev⟩ := deviceReceive_congr bs hd hc hm hr
  obtain ⟨rx, dev, he, -⟩ := deviceReceive_spec u bs
  rw [← hrx, ← hdev, he]

theorem emitTx_of_congr (bs : List Byte) (hd : u.device = s.device) (hc : u.cfg.slave = s.cfg.slave) (hm : u.dev = s.dev)
    (hr : u.rx = s.rx) :
    emitTx bs u = { u with tx := u.tx ++ [bs], rx := (emitTx bs s).rx, dev := (emitTx bs s).dev } :=
  deviceReceive_of_congr bs (u := { u with tx := u.tx ++ [bs] }) (s := { s with tx := s.tx ++ [bs] }) hd hc hm hr

/-! ### `issue` -/

/-- `issue` latches, and hands the frame over as `TX.WRITE` does in the state before it. -/
theorem issued_eq_latched (s : State) (w : CmdWord) :
    s.issued w = { s.latched (requestOf w) with
      tx := s.tx ++ [requestFrame s.cfg.slave (requestOf w)]
      rx := (emitTx (requestFrame s.cfg.slave (requestOf w)) s).rx
      dev := (emitTx (requestFrame s.cfg.slave (requestOf w)) s).dev } :=
  emitTx_of_congr _ rfl rfl rfl rfl

theorem requestOf_packCmd (k : Bool) (a b : Word) : requestOf (packCmd k a b) = ⟨requestKind k, a, b⟩ := by
  simp [requestOf]

/-- The frame without its trailer is the body. -/
theorem take_six_requestFrame (slave : Byte) (r : Request) : (requestFrame slave r).take 6 = requestBody slave r := by
  unfold requestFrame requestBody
  split <;> rfl

theorem legal_of_bounds {c : Cfg} (h1 : 1 ≤ c.slave.toNat) (h2 : c.slave.toNat ≤ 247) : c.legal = true := by
  simp [Cfg.legal, h1, h2]

/-! ### `collect` -/

/-- The result of a transaction, a function of the request and the answer alone (R154, R155, R159). -/
def transactionResult (r : Request) (raw : List Byte) : TransactionResult :=
  if raw.length < expectedLength r.k r.b then .failed .timeout else decodeFor r raw

theorem collectedResult_eq (h : s.explen = expectedLength s.req.k s.req.b) :
    collectedResult s = transactionResult s.req (answer s.explen s) := by
  rw [collectedResult, transactionResult, ← h]

theorem transactionResult_of_short {r : Request} {raw : List Byte} (h : raw.length < expectedLength r.k r.b) :
    transactionResult r raw = .failed .timeout := if_pos h

/-- A read that is not short has the result of `DEC.RD`, within its precondition. -/
theorem exec_decRd_transactionResult {r : Request} {raw : List Byte} (hk : r.k = .readHoldingRegisters)
    (h : expectedLength r.k r.b ≤ raw.length) (s : State) :
    ∃ t, exec (.decRd raw r.b) s = .next t ∧ t.out = some (.decoded (transactionResult r raw)) := by
  refine exec_decRd_out (by rwa [hk] at h) ?_ s
  rw [transactionResult, if_neg (Nat.not_lt.2 h), decodeFor, hk]

/-- A write whose answer is not short has the result of `DEC.WR`. -/
theorem exec_decWr_transactionResult {r : Request} {raw : List Byte} (hk : r.k = .writeSingleRegister)
    (h : expectedLength r.k r.b ≤ raw.length) (s : State) :
    ∃ t, exec (.decWr raw) s = .next t ∧ t.out = some (.decoded (transactionResult r raw)) := by
  refine exec_decWr_out ?_ s
  rw [transactionResult, if_neg (Nat.not_lt.2 h), decodeFor, hk]

theorem finish_eq (s : State) (r : TransactionResult) :
    s.finish r = { s with result := some r, seq := if r.isOk then .decoded else .failed } := by
  cases r <;> rfl

theorem received_eq (s : State) :
    s.received = { s with
      rxbuf := answer s.explen s
      rxlen := (answer s.explen s).length
      rx := (afterAnswer s.explen s).rx
      arrivals := (afterAnswer s.explen s).arrivals
      freeReads := (afterAnswer s.explen s).freeReads } := by
  obtain ⟨rx, arrivals, k, he⟩ := afterAnswer_spec s s.explen
  rw [State.received, he]

/-- `collect` writes what the adapter answered, the scratch, and the result with the state that goes with it. -/
theorem collected_eq (s : State) :
    s.collected = { s.received with
      acc := collectedAcc s
      result := some (collectedResult s)
      seq := if (collectedResult s).isOk then .decoded else .failed } := by
  rw [← s.collected_acc]
  rcases s.collected_cases with ⟨hlt, he⟩ | ⟨heq, he⟩
  · rw [collectedResult, if_pos hlt, he]
    rfl
  · rw [collectedResult, if_neg heq.not_lt, he, finish_eq]
    rfl

/-- With the expected length of a read covered, `collect` calls no decoder outside its precondition (R126). -/
theorem collectDefined_of_explen (h : s.explen = expectedLength s.req.k s.req.b) : s.collectDefined = true := by
  unfold State.collectDefined
  split
  next hk => simp [h, hk, expectedLength]
  · rfl

end Sys2Proof.Machine

namespace Sys2Proof

open Machine

/-- Settles O29: `issue` is the latches and one `TX.WRITE` (`issued_eq_latched`). -/
theorem issueEffect : Obligations.IssueEffect := by
  unfold Obligations.IssueEffect
  intro k a b s hs h1 h2
  have hissue := execIssue_of_idle (packCmd k a b) hs (legal_of_bounds h1 h2)
  rw [issued_eq_latched, State.latched, ← take_six_requestFrame, requestOf_packCmd] at hissue
  cases k <;> exact ⟨_, _, _, hissue, rfl, rfl, rfl⟩

/-- Settles O32: `collect` is one `RX.READ` and the assignment of its result (`collected_eq`). -/
theorem collectEffect : Obligations.CollectEffect := by
  unfold Obligations.CollectEffect
  intro s hs hn
  refine ⟨s.collected, _, answer s.explen s, collectedResult s,
    execCollect_of_awaitingResponse hs (collectDefined_of_explen hn), rfl, rfl, answer_length_le s s.explen, ?_, ?_⟩
  · rw [State.collected_acc, collected_eq, received_eq]
    rfl
  · rw [collectedResult_eq hn, hn]
    exact ⟨transactionResult_of_short, fun hl hk => exec_decRd_transactionResult hk hl.ge s,
      fun hl hk => exec_decWr_transactionResult hk hl.ge s⟩

end Sys2Proof
end

section
/-! SUPPORT. The two commands (43_transaction_sequencer.md sections 3 to 5, R154 to R156, R160): one frame, one read, one
result, and the three steps that lead to it. -/

namespace Sys2Proof.Machine

variable {s : State} {i : Instr} {o : Offer} {rest : List Offer}

/-! ### A whole transaction as one assignment -/

/-- The frame of the command has been written, and nothing else has been done. -/
def State.written (s : State) (w : CmdWord) : State := emitTx (requestFrame s.cfg.slave (requestOf w)) s

/-- How many bytes the command reads (R148). -/
def readLength (w : CmdWord) : Nat := expectedLength (requestOf w).k (requestOf w).b

/-- Before `collect` the state is that of the frame written, but for the registers of the core. -/
theorem turnedAround_issued (s : State) (w : CmdWord) :
    (s.issued w).turnedAround = ((s.written w).withStale (requestOf w) (crc16 (requestBody s.cfg.slave (requestOf w)))
      (requestFrame s.cfg.slave (requestOf w)) [] (readLength w) 0 none).withSeq .awaitingResponse := by
  rw [turnedAround_of_sent (s.issued_seq w), issued_eq_latched, State.written,
    emitTx_of_congr _ (u := s) (s := s) rfl rfl rfl rfl]
  rfl

theorem afterAnswer_withStale_withSeq (n : Nat) (s : State) (req : Request) (acc : Word) (txbuf rxbuf : List Byte)
    (explen rxlen : Nat) (result : Option TransactionResult) (q : Seq) :
    afterAnswer n ((s.withStale req acc txbuf rxbuf explen rxlen result).withSeq q) =
      ((afterAnswer n s).withStale req acc txbuf rxbuf explen rxlen result).withSeq q := by
  cases s with
  | mk => unfold afterAnswer State.withStale State.withSeq; dsimp only; split <;> rfl

/-- The one read of the transaction is made after the frame was written. -/
theorem answer_turnedAround_issued (s : State) (w : CmdWord) :
    answer (s.issued w).turnedAround.explen (s.issued w).turnedAround = answer (readLength w) (s.written w) := by
  rw [turnedAround_issued]
  exact answer_congr _ rfl rfl rfl rfl

/-- The result of a transaction is the function form of its request and its answer (R154, R155). -/
theorem collectedResult_turnedAround_issued (s : State) (w : CmdWord) :
    collectedResult (s.issued w).turnedAround =
      transactionResult (requestOf w) (answer (readLength w) (s.written w)) := by
  rw [collectedResult_eq (by simp), answer_turnedAround_issued, State.turnedAround_req, State.issued_req]

/-- A transaction from `Idle` is one answer to a read after the frame was written, and the registers of the core (R154, R155). -/
theorem transaction_eq (w : CmdWord) (hs : s.seq = .idle) :
    s.transaction w = { afterAnswer (readLength w) (s.written w) with
      req := requestOf w
      txbuf := requestFrame s.cfg.slave (requestOf w)
      explen := readLength w
      rxbuf := answer (readLength w) (s.written w)
      rxlen := (answer (readLength w) (s.written w)).length
      acc := collectedAcc (s.issued w).turnedAround
      result := some (transactionResult (requestOf w) (answer (readLength w) (s.written w)))
      res := s.res ++ [transactionResult (requestOf w) (answer (readLength w) (s.written w))] } := by
  have hseq : (afterAnswer (readLength w) (s.written w)).seq = .idle := by simpa [State.written] using hs
  have hres : (afterAnswer (readLength w) (s.written w)).res = s.res := by simp [State.written]
  rw [State.transaction, State.retired, collected_eq, collectedResult_turnedAround_issued, State.received,
    answer_turnedAround_issued, turnedAround_issued, afterAnswer_withStale_withSeq, ← hseq, ← hres]
  rfl

/-- What both commands do: one `TX.WRITE`, one `RX.READ` after it, one result. -/
theorem transfer_effect {w : CmdWord} {r : Request} (hw : requestOf w = r) (hs : s.seq = .idle) (hl : s.cfg.legal = true) :
    ∃ (t v : State) (raw : List Byte),
      exec (.rxRead (expectedLength r.k r.b)) (emitTx (requestFrame s.cfg.slave r) s) = .next v ∧
        v.out = some (.bytes raw) ∧ transfer w s = .next t ∧
        t = { v with
          out := s.out
          req := r
          txbuf := requestFrame s.cfg.slave r
          explen := expectedLength r.k r.b
          rxbuf := raw
          rxlen := raw.length
          acc := t.acc
          result := t.result
          res := t.res } ∧
        t.seq = .idle ∧ t.tx = s.tx ++ [requestFrame s.cfg.slave r] ∧
        t.result = some (transactionResult r raw) ∧ t.res = s.res ++ [transactionResult r raw] := by
  subst hw
  have hout : (afterAnswer (readLength w) (s.written w)).out = s.out := by simp [State.written]
  refine ⟨_, _, _, rfl, rfl, transfer_of_idle w hs hl, ?_, s.transaction_seq w, s.transaction_tx w, ?_, ?_⟩
  · rw [transaction_eq w hs, ← hout]
    rfl
  · rw [transaction_eq w hs]
    rfl
  · rw [transaction_eq w hs]
    rfl

/-! ### A command made step by step -/

/-- A move of the host is taken in `Idle`, when the Reconciler is not at work. -/
theorem step_of_host_of_idle (hd : decode o = .instr i) (hm : mover i = .host) (hp : s.prog = o :: rest)
    (hs : s.seq = .idle) (hh : s.host = none) : step s = exec i { s with prog := rest } :=
  step_of_run hd hp (by rw [admission_of_host hm, if_pos ⟨hs, hh⟩])

/-- From the command issued, with no offer, the machine's own next two steps end in a result (R151, R152). -/
theorem core_run_two_issued (w : CmdWord) (hp : s.prog = []) :
    core.run 2 (s.issued w) = .next (s.issued w).turnedAround.collected := by
  have hturn : step (s.issued w) = .next (s.issued w).turnedAround := step_of_sent (by simpa using hp) (by simp)
  have hcollect : step (s.issued w).turnedAround = .next (s.issued w).turnedAround.collected :=
    step_of_awaitingResponse (by simpa using hp) (by simp) (collectDefined_of_issued s w)
  exact (run_succ_of_step (M := core) hturn 1).trans (run_succ_of_step (M := core) hcollect 0)

end Sys2Proof.Machine

namespace Sys2Proof

open Machine

/-- Settles O35: the command is `transfer` of a word that stands for a read (`transfer_effect`). -/
theorem xferRdEffect : Obligations.XferRdEffect := by
  unfold Obligations.XferRdEffect
  intro start q s hs hl
  obtain ⟨t, v, raw, hread, hout, ht, heq, hseq, htx, hresult, hres⟩ :=
    transfer_effect (requestOf_packCmd false start q) hs hl
  exact ⟨t, _, v, raw, rfl, hread, hout, ht, heq, hseq, htx, _, hresult, hres,
    fun h => transactionResult_of_short h, fun h => exec_decRd_transactionResult (r := ⟨_, start, q⟩) rfl h s⟩

/-- Settles O36: the command is `transfer` of a word that stands for a write (`transfer_effect`). -/
theorem xferWrEffect : Obligations.XferWrEffect := by
  unfold Obligations.XferWrEffect
  intro address value s hs hl
  obtain ⟨t, v, raw, hread, hout, ht, heq, hseq, htx, hresult, hres⟩ :=
    transfer_effect (requestOf_packCmd true address value) hs hl
  exact ⟨t, _, v, raw, rfl, hread, hout, ht, heq, hseq, htx, _, hresult, hres,
    fun h => transactionResult_of_short h, fun h => exec_decWr_transactionResult (r := ⟨_, address, value⟩) rfl h s⟩

/-- Settles O38: the command is issued, the machine's own next two steps lead to a result (`core_run_two_issued`), and a third
ends the transaction (`core_run_issued`), as the step with the whole command does. -/
theorem transactionTerminates : Obligations.TransactionTerminates := by
  unfold Obligations.TransactionTerminates
  intro w s hs hh hl hp
  have hissue : step s = .next (State.issued { s with prog := [] } w) :=
    (step_of_host_of_idle (o := .op (.issue w)) rfl rfl hp hs hh).trans (execIssue_of_idle w hs hl)
  have hcommand : step { s with prog := [.cmdWord w] } = .next (State.transaction { s with prog := [] } w) := by
    rw [step_of_host_of_idle (s := { s with prog := [.cmdWord w] }) rfl (mover_decodeCmd w) rfl hs hh, exec_decodeCmd]
    exact transfer_of_idle w hs hl
  refine ⟨_, ?_, collected_seq_done (State.issued { s with prog := [] } w).turnedAround, ?_⟩
  · exact (run_succ_of_step (M := core) hissue 2).trans (core_run_two_issued w rfl)
  · rw [hcommand]
    exact (run_succ_of_step (M := core) hissue 3).trans (core_run_issued w rfl)

end Sys2Proof
end

section
/-! SUPPORT. The serial adapter and what stands behind it (44_serial_adapter.md R175 to R177, R183 to R185): the three things
bytes can do to the conforming slave, what one read takes and leaves, and the answer to a read request. -/

namespace Sys2Proof.Machine

variable {s : State} {bs : List Byte}

/-! ### Bytes reach the conforming slave (R184) -/

theorem deviceReceive_of_conforming (bs : List Byte) (h : s.device = .conforming) :
    deviceReceive bs s = conformingReceive bs s := by
  rw [deviceReceive, h]

/-- A frame of the request format is taken when it is for the slave and its CRC is right, and not otherwise. -/
theorem conformingReceive_frame (slave function : Byte) (a b crc : Word) (s : State) :
    conformingReceive (frameBytes (fieldsBody slave function a b) crc) s =
      if slave = s.cfg.slave ∧ crc16 (fieldsBody slave function a b) = crc then
        conformingRequest function a b (frameBytes (fieldsBody slave function a b) crc) s
      else s := by
  have hok : crcOk (frameBytes (fieldsBody slave function a b) crc) = true ↔ crc16 (fieldsBody slave function a b) = crc := by
    rw [frameBytes, crcOk_append, beq_iff_eq]
  have hfields : conformingRequest function (be16 (hi8 a) (lo8 a)) (be16 (hi8 b) (lo8 b)) =
      conformingRequest function a b := by rw [be16_hi8_lo8, be16_hi8_lo8]
  exact if_congr (and_congr_right' hok) (congrFun (congrFun hfields _) s) rfl

/-- "otherwise: answer nothing": a frame that no conforming slave takes changes nothing, whatever its function code. -/
theorem deviceReceive_ignored {slave function : Byte} {a b crc : Word}
    (h : s.device ≠ .conforming ∨ slave ≠ s.cfg.slave ∨ crc ≠ crc16 (fieldsBody slave function a b)) :
    deviceReceive (frameBytes (fieldsBody slave function a b) crc) s = s := by
  by_cases hd : s.device = .conforming
  · rw [deviceReceive_of_conforming _ hd, conformingReceive_frame]
    exact if_neg fun ⟨hs, hc⟩ => (h.resolve_left (· hd)).elim (· hs) (· hc.symm)
  · exact deviceReceive_of_ne s _ hd

/-- A write request to the slave stores its value and is echoed. -/
theorem deviceReceive_encodeWrite (a v : Word) (h : s.device = .conforming) :
    deviceReceive (encodeWrite s.cfg.slave a v) s =
      { s with dev := writeRegister s.dev a.toNat v, rx := encodeWrite s.cfg.slave a v ++ s.rx } := by
  rw [deviceReceive_of_conforming _ h]
  exact (conformingReceive_frame s.cfg.slave fcWrite a v _ s).trans (if_pos ⟨rfl, rfl⟩)

/-- A read request to the slave is answered, and stores nothing. -/
theorem deviceReceive_encodeRead (a q : Word) (h : s.device = .conforming) :
    deviceReceive (encodeRead s.cfg.slave a q) s = { s with rx := slaveReadAnswer s.cfg.slave s.dev a q ++ s.rx } := by
  rw [deviceReceive_of_conforming _ h]
  exact (conformingReceive_frame s.cfg.slave fcRead a q _ s).trans (if_pos ⟨rfl, rfl⟩)

/-- A function code other than that of a write stores nothing. -/
theorem conformingRequest_dev_of_ne {function : Byte} (hf : function ≠ fcWrite) (a b : Word) (bs : List Byte) (s : State) :
    (conformingRequest function a b bs s).dev = s.dev := by
  rw [conformingRequest, if_neg hf]
  split <;> rfl

/-- Bytes that change the slave's registers are a write request to it. -/
theorem eq_encodeWrite_of_deviceReceive_dev_ne (h : (deviceReceive bs s).dev ≠ s.dev) :
    ∃ a v, bs = encodeWrite s.cfg.slave a v := by
  have hd : s.device = .conforming := by
    by_contra hd
    exact h (by rw [deviceReceive_of_ne s bs hd])
  rw [deviceReceive_of_conforming bs hd] at h
  unfold conformingReceive at h
  split at h
  next slave function ah al bh bl cl ch =>
    split at h
    next hreq =>
      obtain ⟨rfl, hok⟩ := hreq
      obtain rfl : function = fcWrite := by
        by_contra hf
        exact h (conformingRequest_dev_of_ne hf _ _ _ _)
      refine ⟨be16 ah al, be16 bh bl, (eq_sealFrame_of_crcOk (by simp) hok).trans (congrArg sealFrame ?_)⟩
      simp [allButTrailer, writeRequestBody, fieldsBody, fieldBytes]
    · exact absurd rfl h
  · exact absurd rfl h

/-! ### The answer to a read request (R184) -/

@[simp] theorem slaveRegisters_length (m : Memory) (start q : Word) : (slaveRegisters m start q).length = q.toNat := by
  simp [slaveRegisters]

theorem slaveReadAnswer_length (slave : Byte) (m : Memory) (start q : Word) :
    (slaveReadAnswer slave m start q).length = 5 + 2 * q.toNat := by
  rw [slaveReadAnswer, sealFrame_length, registersBody_length, slaveRegisters_length]
  omega

theorem slaveReadAnswer_take (slave : Byte) (m : Memory) (start q : Word) :
    (slaveReadAnswer slave m start q).take (3 + 2 * q.toNat) =
      registersBody slave fcRead (slaveByteCount q) (slaveRegisters m start q) := by
  rw [slaveReadAnswer, sealFrame]
  exact List.take_left' (by rw [registersBody_length, slaveRegisters_length])

/-- Up to 127 registers the byte count fits its byte. -/
theorem slaveByteCount_toNat {q : Word} (h : q.toNat ≤ 127) : (slaveByteCount q).toNat = 2 * q.toNat := by
  rw [slaveByteCount, if_pos h]
  exact Nat.mod_eq_of_lt (by omega)

theorem slaveRegister_of_le (m : Memory) {r : Nat} (h : r ≤ 0xFFFF) : slaveRegister m r = readRegister m r := if_pos h

/-- The answer holds the registers asked for where a decoder looks for them. -/
theorem be16_byteAt_slaveReadAnswer (slave : Byte) (m : Memory) (start q : Word) {i : Nat} (hi : i < q.toNat) :
    be16 (byteAt (slaveReadAnswer slave m start q) (3 + 2 * i)) (byteAt (slaveReadAnswer slave m start q) (4 + 2 * i)) =
      slaveRegister m (start.toNat + i) := by
  have hregs : responseRegisters (slaveReadAnswer slave m start q) q.toNat = slaveRegisters m start q := by
    conv_lhs => rw [← slaveRegisters_length m start q]
    exact responseRegisters_registersBody _ _ _ _ _
  have hget : (slaveRegisters m start q)[i]? = some (slaveRegister m (start.toNat + i)) := by
    simp [slaveRegisters, hi]
  rw [← hregs, responseRegisters_getElem? hi] at hget
  exact Option.some.inj hget

/-! ### One read (R176, R177, R185) -/

theorem available_of_ne_silent (h : s.device ≠ .silent) : available s = s.rx ++ arriving s := by
  unfold available
  split
  · rfl
  · rfl
  next hd => exact absurd hd h

theorem answer_of_ne_silent (n : Nat) (h : s.device ≠ .silent) : answer n s = (s.rx ++ arriving s).take n := by
  rw [answer, available_of_ne_silent h]

/-- What the read did not take stays with the adapter. -/
theorem afterAnswer_rx_of_ne_silent (n : Nat) (h : s.device ≠ .silent) :
    (afterAnswer n s).rx = (s.rx ++ arriving s).drop n := by
  rw [← available_of_ne_silent h, afterAnswer]
  split
  next hd => exact absurd hd h
  · rfl
  · rfl

theorem arriving_of_arrivals {burst : List Byte} {rest : List (List Byte)} (h : s.device ≠ .silent)
    (ha : s.arrivals = burst :: rest) : arriving s = burst := by
  cases hd : s.device with
  | silent => exact absurd hd h
  | _ => rw [arriving, hd, ha]

/-- A read for which a list of arriving bytes stands next takes that list, and no free value. -/
theorem afterAnswer_of_arrivals (n : Nat) {burst : List Byte} {rest : List (List Byte)} (h : s.device ≠ .silent)
    (ha : s.arrivals = burst :: rest) :
    afterAnswer n s = { s with rx := (s.rx ++ burst).drop n, arrivals := rest } := by
  have havail : available s = s.rx ++ burst := by rw [available_of_ne_silent h, arriving_of_arrivals h ha]
  cases hd : s.device with
  | silent => exact absurd hd h
  | _ => simp [afterAnswer, hd, havail, ha]

theorem answer_of_silent (n : Nat) (h : s.device = .silent) : answer n s = [] := by
  rw [answer, available, h]
  exact List.take_nil

theorem afterAnswer_of_silent (n : Nat) (h : s.device = .silent) : afterAnswer n s = s := by
  rw [afterAnswer, h]

theorem execRxRead_of_silent (n : Nat) (h : s.device = .silent) : execRxRead n s = .next (s.withOut (.bytes [])) := by
  rw [execRxRead, afterAnswer_of_silent n h, answer_of_silent n h]

theorem execRxRead_of_arrivals (n : Nat) {burst : List Byte} {rest : List (List Byte)} (h : s.device ≠ .silent)
    (ha : s.arrivals = burst :: rest) :
    execRxRead n s = .next { s with
      out := some (.bytes ((s.rx ++ burst).take n)), rx := (s.rx ++ burst).drop n, arrivals := rest } := by
  rw [execRxRead, afterAnswer_of_arrivals n h ha, answer_of_ne_silent n h, arriving_of_arrivals h ha]
  rfl

theorem expectedLength_pos (k : RequestKind) (b : Word) : 0 < expectedLength k b := by
  cases k with
  | readHoldingRegisters => exact Nat.add_pos_left (Nat.succ_pos 4) _
  | writeSingleRegister => exact Nat.succ_pos 7

/-- With the silent slave the one read of a transaction is empty, and so short (R185). -/
theorem transfer_of_silent (w : CmdWord) (h : s.device = .silent) (hs : s.seq = .idle) (hl : s.cfg.legal = true) :
    ∃ t, transfer w s = .next t ∧ t.res = s.res ++ [.failed .timeout] := by
  obtain ⟨t, v, raw, hread, hout, ht, -, -, -, -, hres⟩ := transfer_effect (w := w) rfl hs hl
  have hempty : raw = [] := by
    cases (execRxRead_of_silent _ (by simpa using h)).symm.trans hread
    cases hout
    rfl
  have htimeout : transactionResult (requestOf w) raw = .failed .timeout :=
    transactionResult_of_short (hempty ▸ expectedLength_pos _ _)
  exact ⟨t, ht, htimeout ▸ hres⟩

end Sys2Proof.Machine

namespace Sys2Proof

open Machine

/-- Settles O21: the bytes are appended, then they reach the device; what changes the slave's registers is a write request to
it (`eq_encodeWrite_of_deviceReceive_dev_ne`), which stores its value (`deviceReceive_encodeWrite`). -/
theorem txWriteEffect : Obligations.TxWriteEffect := by
  unfold Obligations.TxWriteEffect
  intro bs s
  refine ⟨fun hd => congrArg Host.Outcome.next (deviceReceive_of_ne _ bs hd), emitTx bs s, rfl,
    emitTx_of_congr bs rfl rfl rfl rfl, fun hne x => ?_, ?_⟩
  · have hdev : (emitTx bs s).dev = s.dev := by
      by_contra hdev
      obtain ⟨a, v, he⟩ := eq_encodeWrite_of_deviceReceive_dev_ne (s := { s with tx := s.tx ++ [bs] }) hdev
      exact hne a v he
    rw [hdev]
  · rintro hd hwf a v rfl
    have hdev : (emitTx (encodeWrite s.cfg.slave a v) s).dev = writeRegister s.dev a.toNat v :=
      congrArg State.dev (deviceReceive_encodeWrite (s := { s with tx := s.tx ++ [encodeWrite s.cfg.slave a v] }) a v hd)
    rw [hdev]
    exact ⟨readRegister_writeRegister_same hwf _ _, fun _ => readByte_writeRegister_other hwf⟩

/-- Settles O23: what a read takes and what it leaves are the two parts of the bytes available to it
(`answer_of_ne_silent`, `afterAnswer_rx_of_ne_silent`). -/
theorem rxReadEffect : Obligations.RxReadEffect := by
  unfold Obligations.RxReadEffect
  refine ⟨fun n s => ?_, fun n s hd => ?_, fun n burst rest s => execRxRead_of_arrivals n,
    fun n raw rest s hlen hd hrx ha => ?_⟩
  · obtain ⟨rx, arrivals, k, he⟩ := afterAnswer_spec s n
    refine ⟨_, answer n s, rfl, answer_length_le s n, ?_⟩
    rw [he]
    rfl
  · refine ⟨_, arriving s, rfl, ?_, afterAnswer_rx_of_ne_silent n hd⟩
    rw [State.withOut_out, answer_of_ne_silent n hd]
  · refine (execRxRead_of_arrivals n hd ha).trans ?_
    rw [hrx, List.nil_append, List.take_of_length_le hlen, List.drop_of_length_le hlen, ← hrx]

/-- Settles O24: the frame with its valid CRC is that of `ENC.WR` (`deviceReceive_encodeWrite`). -/
theorem reqFc06Store : Obligations.ReqFc06Store := by
  unfold Obligations.ReqFc06Store
  intro address value s hd hwf
  exact ⟨_, congrArg Host.Outcome.next (deviceReceive_encodeWrite address value hd), rfl, readRegister_writeRegister_same hwf _ _,
    fun _ => readByte_writeRegister_other hwf⟩

/-- Settles O25: the frame with its valid CRC is that of `ENC.RD` (`deviceReceive_encodeRead`), and the answer holds the
registers asked for (`be16_byteAt_slaveReadAnswer`). -/
theorem reqFc03Answer : Obligations.ReqFc03Answer := by
  unfold Obligations.ReqFc03Answer
  intro start q s hd
  refine ⟨slaveReadAnswer s.cfg.slave s.dev start q, congrArg Host.Outcome.next (deviceReceive_encodeRead start q hd),
    slaveReadAnswer_length _ _ _ _, ?_, rfl, rfl, slaveByteCount_toNat, fun i hi hle => ?_⟩
  · rw [slaveReadAnswer_take]
    rfl
  · rw [be16_byteAt_slaveReadAnswer _ _ _ _ hi, slaveRegister_of_le _ hle]

/-- Settles O28: the read is empty (`execRxRead_of_silent`), and an empty read makes a transaction time out
(`transfer_of_silent`). -/
theorem silentSlave : Obligations.SilentSlave := by
  unfold Obligations.SilentSlave
  exact fun s h => ⟨fun n => execRxRead_of_silent n h, fun hs hl =>
    ⟨fun a b => transfer_of_silent (packCmd false a b) h hs hl, fun a b => transfer_of_silent (packCmd true a b) h hs hl⟩⟩

/-- Settles O26: both requests are frames of one format (`deviceReceive_ignored`). -/
theorem reqIgnored : Obligations.ReqIgnored := by
  unfold Obligations.ReqIgnored
  exact fun slave a b crc s => ⟨fun h => congrArg Host.Outcome.next (deviceReceive_ignored h),
    fun h => congrArg Host.Outcome.next (deviceReceive_ignored h)⟩

end Sys2Proof
end

section
/-! SUPPORT. The values of the host (45_host_reconciler.md R191, R192, R197, R200, R201): mode names, the test of the frequency,
and the snapshot of a result. -/

namespace Sys2Proof.Machine

theorem modename_modebits (m : OperatingMode) : modename (modebits m) = .named m := by
  cases m <;> rfl

theorem modename_of_ne {v : Word} (h1 : v ≠ 1) (h2 : v ≠ 2) (h4 : v ≠ 4) (h8 : v ≠ 8) : modename v = .unknown := by
  rw [modename, if_neg h1, if_neg h2, if_neg h4, if_neg h8]

theorem frequencyAccepted_iff (f : Int) : frequencyAccepted f = true ↔ 0 ≤ f ∧ f ≤ 500 := by
  rw [frequencyAccepted, Bool.and_eq_true, decide_eq_true_eq, decide_eq_true_eq]

theorem frequencyAccepted_eq_false {f : Int} (h : f < 0 ∨ 500 < f) : frequencyAccepted f = false := by
  rw [Bool.eq_false_iff, Ne, frequencyAccepted_iff]
  omega

/-- Any result but a read of two values is answered by the default snapshot (R200, R201). -/
theorem snapshotOf_of_ne {r : Option TransactionResult} (h : ∀ v0 v1, r ≠ some (.readOk [v0, v1])) :
    snapshotOf r = defaultSnapshot := by
  unfold snapshotOf
  split
  next v0 v1 => exact absurd rfl (h v0 v1)
  · rfl

theorem snapshotOf_failed (k : FailureKind) : snapshotOf (some (.failed k)) = defaultSnapshot := rfl

end Sys2Proof.Machine

namespace Sys2Proof

open Machine

/-- Settles O60: `modename` undoes `modebits`, and finds no name for any further value (`modename_of_ne`). -/
theorem modeBijection : Obligations.ModeBijection := by
  unfold Obligations.ModeBijection
  exact ⟨modename_modebits, modename_modebits .stop, modename_modebits .run, modename_modebits .reverse,
    modename_modebits .forward, fun _ => modename_of_ne⟩

end Sys2Proof
end

section
/-! SUPPORT. `RECONCILE` as the run of its commands (45_host_reconciler.md section 3, R196, R199, R200): which commands these are,
what each leaves on the two records, and the read-back that comes last. -/

namespace Sys2Proof.Machine

variable {s : State}

/-! ### The commands of a `RECONCILE` (R196) -/

theorem reconcileCommands_none : reconcileCommands none = [packCmd false 0x2000 2] := rfl

theorem reconcileCommands_of_accepted {c : HostCommand} (h0 : 0 ≤ c.frequency) (h1 : c.frequency ≤ 500) :
    reconcileCommands (some c) =
      [packCmd true 0x2000 (modebits c.mode), packCmd true 0x2001 (BitVec.ofInt 16 c.frequency), packCmd false 0x2000 2] := by
  rw [reconcileCommands, if_pos ((frequencyAccepted_iff _).2 ⟨h0, h1⟩)]
  rfl

theorem reconcileCommands_of_not_accepted {c : HostCommand} (h : c.frequency < 0 ∨ 500 < c.frequency) :
    reconcileCommands (some c) = [packCmd true 0x2000 (modebits c.mode), packCmd false 0x2000 2] := by
  rw [reconcileCommands, frequencyAccepted_eq_false h]
  rfl

/-- The read-back comes last, whatever is commanded. -/
theorem reconcileCommands_eq_append (c : Option HostCommand) : ∃ ws, reconcileCommands c = ws ++ [packCmd false 0x2000 2] := by
  cases c with
  | none => exact ⟨[], rfl⟩
  | some c => exact ⟨_ :: _, rfl⟩

/-! ### Transactions one after the other -/

theorem transactions_append (s : State) (ws vs : List CmdWord) :
    s.transactions (ws ++ vs) = (s.transactions ws).transactions vs := by
  induction ws generalizing s with
  | nil => rfl
  | cons w ws ih => exact ih _

@[simp] theorem State.transactions_device (s : State) (ws : List CmdWord) : (s.transactions ws).device = s.device := by
  induction ws generalizing s with
  | nil => rfl
  | cons w ws ih => rw [State.transactions, ih, State.transaction_device]

/-- Each transaction sends one frame. -/
theorem transactions_tx_length (s : State) (ws : List CmdWord) :
    (s.transactions ws).tx.length = s.tx.length + ws.length := by
  induction ws generalizing s with
  | nil => rfl
  | cons w ws ih =>
    rw [State.transactions, ih, State.transaction_tx, List.length_append, List.length_singleton, List.length_cons]
    omega

/-- Each transaction delivers one result. -/
theorem transactions_res_length (s : State) (ws : List CmdWord) :
    (s.transactions ws).res.length = s.res.length + ws.length := by
  induction ws generalizing s with
  | nil => rfl
  | cons w ws ih =>
    obtain ⟨r, -, hres⟩ := s.transaction_result w
    rw [State.transactions, ih, hres, List.length_append, List.length_singleton, List.length_cons]
    omega

/-- In `Idle` the operations of command words, run in order, are the transactions of the words (R76). -/
theorem execAll_map_decodeCmd (ws : List CmdWord) (hs : s.seq = .idle) (hl : s.cfg.legal = true) :
    execAll (ws.map decodeCmd) s = .next (s.transactions ws) := by
  induction ws generalizing s with
  | nil => rfl
  | cons w ws ih =>
    rw [List.map_cons, execAll_cons_of_next ((exec_decodeCmd w s).trans (transfer_of_idle w hs hl))]
    exact ih rfl (by simpa using hl)

/-! ### The result of the last transaction -/

/-- What a transaction delivers is what stands in `RESULT` after it. -/
theorem transaction_getLast?_res (s : State) (w : CmdWord) : (s.transaction w).res.getLast? = (s.transaction w).result := by
  obtain ⟨r, hresult, hres⟩ := s.transaction_result w
  rw [hresult, hres, List.getLast?_concat]

theorem transaction_result_of_res {w : CmdWord} {r : TransactionResult} (h : (s.transaction w).res = s.res ++ [r]) :
    (s.transaction w).result = some r := by
  rw [← transaction_getLast?_res, h, List.getLast?_concat]

theorem transaction_result_of_silent (w : CmdWord) (hd : s.device = .silent) (hs : s.seq = .idle) (hl : s.cfg.legal = true) :
    (s.transaction w).result = some (.failed .timeout) := by
  obtain ⟨t, ht, hres⟩ := transfer_of_silent w hd hs hl
  cases (transfer_of_idle w hs hl).symm.trans ht
  exact transaction_result_of_res hres

/-- The transactions of a `RECONCILE` end with the read-back, made in `Idle`. -/
theorem transactions_reconcileCommands (c : Option HostCommand) (hs : s.seq = .idle) :
    ∃ u : State, u.seq = .idle ∧ u.cfg = s.cfg ∧ u.device = s.device ∧
      s.transactions (reconcileCommands c) = u.transaction (packCmd false 0x2000 2) := by
  obtain ⟨ws, hws⟩ := reconcileCommands_eq_append c
  exact ⟨s.transactions ws, s.transactions_seq ws hs, s.transactions_cfg ws, s.transactions_device ws,
    by rw [hws, transactions_append]; rfl⟩

/-- In `Idle` a `RECONCILE` is the run of its commands, and the snapshot of the last result (R196). -/
theorem execReconcile_eq_execAll {c : Option HostCommand} {ws : List CmdWord} {is : List Instr} (hc : reconcileCommands c = ws)
    (hi : ws.map decodeCmd = is) (hs : s.seq = .idle) (hl : s.cfg.legal = true) :
    ∃ t, execAll is s = .next t ∧ exec (.reconcile c) s = .next { t with snapshot := some (snapshotOf t.result) } := by
  subst hc hi
  exact ⟨_, execAll_map_decodeCmd _ hs hl, execReconcile_of_idle c hs hl⟩

end Sys2Proof.Machine

namespace Sys2Proof

open Machine

/-- Settles O55: the commands in each of the three cases are run as their words are (`execReconcile_eq_execAll`), and the snapshot
is the default one for any result but a read of two values (`snapshotOf_of_ne`). -/
theorem reconcileEffect : Obligations.ReconcileEffect := by
  unfold Obligations.ReconcileEffect
  intro s hs hl
  refine ⟨?_, fun m f h0 h1 => ?_, fun m f h => ?_, fun _ _ => rfl, fun _ => snapshotOf_of_ne⟩
  · exact execReconcile_eq_execAll reconcileCommands_none (by simp [decodeCmd_packCmd]) hs hl
  · exact execReconcile_eq_execAll (reconcileCommands_of_accepted h0 h1) (by simp [decodeCmd_packCmd]) hs hl
  · exact execReconcile_eq_execAll (reconcileCommands_of_not_accepted h) (by simp [decodeCmd_packCmd]) hs hl

/-- Settles O57: each command sends one frame and delivers one result (`transactions_tx_length`, `transactions_res_length`), and
the commands are counted case by case. -/
theorem reconcileCounts : Obligations.ReconcileCounts := by
  unfold Obligations.ReconcileCounts
  intro c s hs hl
  refine ⟨s.reconciled c, (reconcileCommands c).length, execReconcile_of_idle c hs hl, s.transactions_seq _ hs,
    transactions_tx_length s _, transactions_res_length s _, ?_, ?_, ?_⟩
  · rintro rfl
    rfl
  · rintro x rfl h
    rw [reconcileCommands_of_not_accepted h]
    rfl
  · rintro x rfl h0 h1
    rw [reconcileCommands_of_accepted h0 h1]
    rfl

/-- Settles O58: the last result is that of the read-back (`transactions_reconcileCommands`), which times out with the silent
slave; the snapshot of a failure is the default one. -/
theorem readFailureFallback : Obligations.ReadFailureFallback := by
  unfold Obligations.ReadFailureFallback
  intro c s hs hl
  obtain ⟨u, huseq, hucfg, hudev, hu⟩ := transactions_reconcileCommands c hs
  have hfail {k : FailureKind} (h : (s.transactions (reconcileCommands c)).result = some (.failed k)) :
      (s.reconciled c).snapshot = some defaultSnapshot := by
    rw [State.reconciled, h, snapshotOf_failed]
  refine ⟨s.reconciled c, execReconcile_of_idle c hs hl, fun k hk => hfail (k := k) ?_, fun hd => hfail (k := .timeout) ?_⟩
  · change (s.transactions (reconcileCommands c)).res.getLast? = _ at hk
    rwa [hu, transaction_getLast?_res, ← hu] at hk
  · rw [hu]
    exact transaction_result_of_silent _ (hudev.trans hd) huseq (hucfg ▸ hl)

end Sys2Proof
end

section
/-! SUPPORT. Transactions and `RECONCILE` against the conforming slave (44_serial_adapter.md R184, 45_host_reconciler.md
section 3, R196): its answer is the whole answer to the one read, a write succeeds and stores, a read returns what is stored. -/

namespace Sys2Proof.Machine

variable {s : State}

/-! ### One transaction -/

/-- A read of as many bytes as the first answer in the queue has is answered by that answer. -/
theorem answer_of_rx_eq_append {n : Nat} {bs rest : List Byte} (hd : s.device ≠ .silent) (hrx : s.rx = bs ++ rest)
    (hn : bs.length = n) : answer n s = bs := by
  rw [answer_of_ne_silent n hd, hrx, List.append_assoc, List.take_left' hn]

theorem transaction_dev (w : CmdWord) (hs : s.seq = .idle) : (s.transaction w).dev = (s.written w).dev := by
  rw [transaction_eq w hs, afterAnswer_dev]

theorem written_device (w : CmdWord) : (s.written w).device = s.device := emitTx_device _ _

/-- A device whose answer to the frame is as long as the read wants gives the transaction the result of that answer. -/
theorem transaction_res_of_rx {w : CmdWord} {bs rest : List Byte} (hs : s.seq = .idle) (hd : s.device ≠ .silent)
    (hrx : (s.written w).rx = bs ++ rest) (hlen : bs.length = readLength w) :
    (s.transaction w).res = s.res ++ [decodeFor (requestOf w) bs] := by
  have hresult : transactionResult (requestOf w) bs = decodeFor (requestOf w) bs := if_neg (Nat.not_lt.2 hlen.ge)
  rw [transaction_eq w hs, answer_of_rx_eq_append ((written_device w).trans_ne hd) hrx hlen, hresult]

/-- A write frame handed over is stored and echoed. -/
theorem written_write_of_conforming (a v : Word) (hd : s.device = .conforming) :
    s.written (packCmd true a v) = { s with
      tx := s.tx ++ [encodeWrite s.cfg.slave a v]
      dev := writeRegister s.dev a.toNat v
      rx := encodeWrite s.cfg.slave a v ++ s.rx } := by
  rw [State.written, requestOf_packCmd]
  exact deviceReceive_encodeWrite (s := { s with tx := s.tx ++ [encodeWrite s.cfg.slave a v] }) a v hd

/-- A read frame handed over is answered. -/
theorem written_read_of_conforming (a q : Word) (hd : s.device = .conforming) :
    s.written (packCmd false a q) = { s with
      tx := s.tx ++ [encodeRead s.cfg.slave a q]
      rx := slaveReadAnswer s.cfg.slave s.dev a q ++ s.rx } := by
  rw [State.written, requestOf_packCmd]
  exact deviceReceive_encodeRead (s := { s with tx := s.tx ++ [encodeRead s.cfg.slave a q] }) a q hd

/-- The answer to a read of up to 127 registers decodes to what the slave holds. -/
theorem decodeRead_slaveReadAnswer (slave : Byte) (m : Memory) (start : Word) {q : Word} (hq : q.toNat ≤ 127) :
    decodeRead (slaveReadAnswer slave m start q) q = .readOk (slaveRegisters m start q) := by
  have h := decodeRead_sealFrame_registersBody slave fcRead (vs := slaveRegisters m start q) (by simpa using hq)
  rwa [slaveRegisters_length, BitVec.ofNat_toNat, BitVec.setWidth_eq,
    show BitVec.ofNat 8 (2 * q.toNat) = slaveByteCount q from (if_pos hq).symm] at h

/-- A write stores its value and succeeds. -/
theorem transaction_write_of_conforming (a v : Word) (hs : s.seq = .idle) (hd : s.device = .conforming) :
    (s.transaction (packCmd true a v)).res = s.res ++ [.writeOk] ∧
      (s.transaction (packCmd true a v)).dev = writeRegister s.dev a.toNat v := by
  have hw := written_write_of_conforming a v hd
  constructor
  · have hres := transaction_res_of_rx hs (by simp [hd]) (congrArg State.rx hw) (by rw [readLength, requestOf_packCmd]; rfl)
    rw [hres, requestOf_packCmd]
    exact congrArg (s.res ++ [·]) (decodeWrite_sealFrame rfl)
  · rw [transaction_dev _ hs, hw]

/-- A read of up to 127 registers returns what the slave holds, and stores nothing. -/
theorem transaction_read_of_conforming (a : Word) {q : Word} (hq : q.toNat ≤ 127) (hs : s.seq = .idle)
    (hd : s.device = .conforming) :
    (s.transaction (packCmd false a q)).res = s.res ++ [.readOk (slaveRegisters s.dev a q)] ∧
      (s.transaction (packCmd false a q)).dev = s.dev := by
  have hw := written_read_of_conforming a q hd
  constructor
  · have hres := transaction_res_of_rx hs (by simp [hd]) (congrArg State.rx hw)
      (by rw [slaveReadAnswer_length, readLength, requestOf_packCmd]; rfl)
    rw [hres, requestOf_packCmd]
    exact congrArg (s.res ++ [·]) (decodeRead_slaveReadAnswer _ _ _ hq)
  · rw [transaction_dev _ hs, hw]

/-! ### Two registers next to each other -/

theorem readRegister_writeRegister_succ {m : Memory} (h : m.wf = true) (r : Nat) (v f : Word) :
    readRegister (writeRegister (writeRegister m r v) (r + 1) f) r = v := by
  rw [readRegister_writeRegister_other (writeRegister_wf h _ _) (Nat.ne_add_one r), readRegister_writeRegister_same h]

theorem readByte_writeRegister_succ_other {m : Memory} (h : m.wf = true) {r : Nat} (v f : Word) {a : Nat}
    (ha : a < 2 * r ∨ 2 * (r + 1) + 1 < a) :
    readByte (writeRegister (writeRegister m r v) (r + 1) f) a = readByte m a := by
  rw [readByte_writeRegister_other (writeRegister_wf h _ _) (by omega) (by omega),
    readByte_writeRegister_other h (by omega) (by omega)]

theorem slaveRegisters_two (m : Memory) {a : Word} (ha : a.toNat < 0xFFFF) :
    slaveRegisters m a 2 = [readRegister m a.toNat, readRegister m (a.toNat + 1)] := by
  rw [← slaveRegister_of_le m ha.le, ← slaveRegister_of_le m ha]
  rfl

/-- Two registers written, one after the other, and read back: every result is a success, and the last holds what was written. -/
theorem transactions_write_write_read {a : Word} (ha : a.toNat < 0xFFFF) (v f : Word) (hs : s.seq = .idle)
    (hd : s.device = .conforming) (hwf : s.dev.wf = true) :
    ∃ t, s.transactions [packCmd true a v, packCmd true (a + 1) f, packCmd false a 2] = t ∧
      t.result = some (.readOk [v, f]) ∧ t.res = s.res ++ [.writeOk, .writeOk, .readOk [v, f]] ∧
      t.dev = writeRegister (writeRegister s.dev a.toNat v) (a.toNat + 1) f := by
  have hnext : (a + 1).toNat = a.toNat + 1 := BitVec.toNat_add_of_lt (Nat.add_lt_add_right ha 1)
  obtain ⟨hres1, hdev1⟩ := transaction_write_of_conforming a v hs hd
  obtain ⟨hres2, hdev2⟩ := transaction_write_of_conforming (s := s.transaction _) (a + 1) f rfl
    ((s.transaction_device _).trans hd)
  obtain ⟨hres3, hdev3⟩ := transaction_read_of_conforming (s := (s.transaction _).transaction _) a (q := 2) (by decide) rfl
    ((State.transaction_device _ _).trans ((s.transaction_device _).trans hd))
  rw [hdev1, hnext] at hdev2
  rw [hdev2, slaveRegisters_two _ ha, readRegister_writeRegister_succ hwf,
    readRegister_writeRegister_same (writeRegister_wf hwf _ _)] at hres3
  refine ⟨_, rfl, transaction_result_of_res hres3, hres3.trans ?_, hdev3.trans hdev2⟩
  rw [hres2, hres1, List.append_assoc, List.append_assoc]
  rfl

end Sys2Proof.Machine

namespace Sys2Proof

open Machine

/-- Settles O59: the three transactions of an accepted command write two registers and read them back
(`transactions_write_write_read`), and the two stores leave every other byte alone. -/
theorem endToEnd : Obligations.EndToEnd := by
  unfold Obligations.EndToEnd
  intro m f s hs hl hd hwf h0 h1
  obtain ⟨t, ht, hresult, hres, hdev⟩ :=
    transactions_write_write_read (a := 0x2000) (by decide) (modebits m) (BitVec.ofInt 16 f) hs hd hwf
  have hexec : exec (.reconcile (some { mode := m, frequency := f })) s =
      .next { t with snapshot := some (snapshotOf t.result) } := by
    rw [← ht]
    refine (execReconcile_of_idle _ hs hl).trans ?_
    rw [State.reconciled, reconcileCommands_of_accepted h0 h1]
    rfl
  refine ⟨_, hexec, ?_, hres, ?_, ?_, fun a ha => ?_⟩
  · rw [hresult, snapshotOf, modename_modebits]
  · exact (congrArg (readRegister · 0x2000) hdev).trans (readRegister_writeRegister_succ hwf _ _ _)
  · exact (congrArg (readRegister · 0x2001) hdev).trans (readRegister_writeRegister_same (writeRegister_wf hwf _ _) _ _)
  · exact (congrArg (readByte · a) hdev).trans (readByte_writeRegister_succ_other hwf _ _ ha)

end Sys2Proof
end

section
/-! SUPPORT. Runs that never stop (60_exceptions.md sections 5 and 6, R226, R230): with the invariant and a legal slave address,
every operation the host or the link may offer answers a next state, and so does the machine's own next step; no step adds an
offer. -/

namespace Sys2Proof.Machine

variable {s : State} {r : Result} {o : Offer} {rest : List Offer} {i : Instr}

/-- The outcome is a next state, and the offers still to come are the last ones of those before. -/
def GoesOn (s : State) (r : Result) : Prop := ∃ t, r = .next t ∧ t.prog <:+ s.prog

theorem goesOn_next {t : State} (h : t.prog = s.prog) : GoesOn s (.next t) := ⟨t, rfl, h ▸ List.suffix_refl _⟩

/-- What goes on once the offer at the head has been taken goes on. -/
theorem GoesOn.of_taken (hp : s.prog = o :: rest) (h : GoesOn { s with prog := rest } r) : GoesOn s r := by
  obtain ⟨t, ht, hrest⟩ := h
  exact ⟨t, ht, hp ▸ hrest.trans (List.suffix_cons o rest)⟩

/-! ### The machine's own next step (R146, R199) -/

theorem goesOn_reconcilerStep (hs : s.seq = .idle) (hl : s.cfg.legal = true) : GoesOn s (reconcilerStep s) := by
  unfold reconcilerStep
  split
  · exact goesOn_next rfl
  next w ws _ =>
    rw [execIssue_of_idle (s := { s with host := some ws }) w hs hl]
    exact goesOn_next (State.issued_prog _ w)
  · exact goesOn_next rfl

/-- In each state of `SEQ` the machine makes the step this state enables; `collect` meets the precondition of its decoder by
the length that `issue` has latched (R126, R148). -/
theorem goesOn_advance (h : Inv s) (hl : s.cfg.legal = true) : GoesOn s (advance s) := by
  unfold advance
  split
  next hs => exact goesOn_reconcilerStep hs hl
  next hs => rw [execTurnaround_of_sent hs]; exact goesOn_next s.turnedAround_prog
  next hs =>
    obtain ⟨hexplen, -⟩ := h.inFlight (by simp [hs])
    rw [execCollect_of_awaitingResponse hs (collectDefined_of_explen hexplen)]
    exact goesOn_next (s.collected_prog.trans s.received_prog)
  next hs => rw [execRetire_of_done (.inl hs)]; exact goesOn_next s.retired_prog
  next hs => rw [execRetire_of_done (.inr hs)]; exact goesOn_next s.retired_prog

/-! ### The operations the host and the link may offer (R6, R126, R181) -/

/-- The operation is a move of the host or of the link, and a `DEC.RD` has its precondition. The other fields of a frame are
whatever the line made of them (R183). -/
structure FromOutside (i : Instr) : Prop where
  mover : mover i = .host ∨ mover i = .link
  precondition : ∀ raw q, i = .decRd raw q → 5 + 2 * q.toNat ≤ raw.length

/-- An operation that has an encoding is a frame on the link or a command of the host. -/
theorem fromOutside_of_encode (h : encode i = some o) : FromOutside i := by
  cases i with
  | reqFc03 | reqFc06 | rspFc06 | rspFc03 => exact ⟨.inr rfl, nofun⟩
  | xferRd | xferWr => exact ⟨.inl rfl, nofun⟩
  | _ => cases h

theorem fromOutside_of_admissible_op (h : (Offer.op i).admissible = true) : FromOutside i := by
  cases i with
  | reqFc03 | reqFc06 | rspFc06 | rspFc03 => exact ⟨.inr rfl, nofun⟩
  | txWrite | waitTurn | rxRead | turnaround | collect | retire => cases h
  | decRd raw q =>
    refine ⟨.inl rfl, ?_⟩
    rintro _ _ ⟨⟩
    exact of_decide_eq_true h
  | _ => exact ⟨.inl rfl, nofun⟩

theorem fromOutside_of_admissible (h : o.admissible = true) (hd : decode o = .instr i) : FromOutside i := by
  rcases encode_of_decode hd with he | rfl
  · exact fromOutside_of_encode he
  · exact fromOutside_of_admissible_op h

theorem FromOutside.not_denied (h : FromOutside i) (s : State) : admission i s ≠ .deny := by
  rw [Ne, admission_eq_deny_iff]
  rcases h.mover with hm | hm <;> simp [hm]

/-- A move of the host is admitted in `Idle` only (R149, R162). -/
theorem idle_of_admitted (hm : mover i = .host) (ha : admission i s = .run) : s.seq = .idle := by
  rw [admission_of_host hm] at ha
  by_contra hs
  simp [hs] at ha

/-- In `Idle` no command is held (R149). -/
theorem goesOn_takenInIdle {u : State} (hs : s.seq = .idle) (hl : s.cfg.legal = true) (hu : u.prog = s.prog) :
    GoesOn s (takenInIdle o u s) := by
  rw [takenInIdle_of_idle o u hs hl]
  exact goesOn_next hu

/-- No operation from outside is one of those that stop: a step of the sequencer not enabled, a primitive, a `DEC.RD` below its
precondition, a command with an illegal slave address (R22, R126, R146, R181). -/
theorem goesOn_exec (h : FromOutside i) (hs : mover i = .host → s.seq = .idle) (hl : s.cfg.legal = true) :
    GoesOn s (exec i s) := by
  cases i with
  | reqFc03 | reqFc06 => exact goesOn_next (deviceReceive_prog s _)
  | rspFc06 | rspFc03 => exact goesOn_next rfl
  | xferRd | xferWr => exact goesOn_takenInIdle (hs rfl) hl (s.transaction_prog _)
  | issue w => exact goesOn_takenInIdle (hs rfl) hl (s.issued_prog w)
  | reconcile c => exact goesOn_takenInIdle (hs rfl) hl (s.transactions_prog (reconcileCommands c))
  | crc16 | crcInit | crcUpd | crcGet | encRd | encWr | decWr => exact goesOn_next rfl
  | decRd raw q =>
    exact ⟨_, execDecRd_of_le (h.precondition raw q rfl) s, List.suffix_refl _⟩
  | txWrite | waitTurn | rxRead | turnaround | collect | retire => rcases h.mover with hm | hm <;> cases hm

/-! ### The step (R226) -/

theorem goesOn_runOther (h : Inv s) (hl : s.cfg.legal = true) (hp : s.prog = o :: rest) : GoesOn s (runOther o rest s) := by
  have taken {t : State} (ht : t.prog = rest) : GoesOn s (.next t) := .of_taken hp (goesOn_next ht)
  cases o with
  | cmdWord | response | op | reset => exact taken rfl
  | request bs => exact taken (deviceReceive_prog _ bs)
  | reconcile c =>
    simp only [runOther]
    split
    · exact taken rfl
    · exact goesOn_advance h hl
    next hdeny => exact absurd hdeny (hostAdmission_ne_deny s)
  | proceed => exact .of_taken hp (goesOn_advance { h with } hl)

/-- Whatever offer stands at the head, it is run, waits for the machine's own next step, or is no operation of the table. -/
theorem goesOn_step_of_safe (h : Safe s) : GoesOn s (step s) := by
  match hp : s.prog with
  | [] => exact step_of_nil hp ▸ goesOn_advance h.inv h.legal
  | o :: rest =>
    match hd : decode o with
    | .rejected e => exact step_of_rejected hd hp ▸ goesOn_runOther h.inv h.legal hp
    | .instr i =>
      have hi : FromOutside i := fromOutside_of_admissible (h.offers o (by simp [hp])) hd
      match ha : admission i s with
      | .run =>
        rw [step_of_run hd hp ha]
        exact .of_taken hp (goesOn_exec hi (fun hm => idle_of_admitted hm ha) h.legal)
      | .wait => exact step_of_wait hd hp ha ▸ goesOn_advance h.inv h.legal
      | .deny => exact absurd ha (hi.not_denied s)

end Sys2Proof.Machine

namespace Sys2Proof

open Machine

/-- Settles O51: the step goes on and adds no offer (`goesOn_step_of_safe`), it keeps the invariant (`step_keeps_inv`) and the
configuration (`Moves.extends`). -/
theorem safeStepGoesOn : Obligations.SafeStepGoesOn := by
  unfold Obligations.SafeStepGoesOn
  intro s h
  obtain ⟨t, ht, hprog⟩ := goesOn_step_of_safe h
  have hcfg : t.cfg = s.cfg := (moves_step ht).extends.cfg
  exact ⟨t, ht, step_keeps_inv h.inv ht, hcfg ▸ h.legal, fun o ho => h.offers o (hprog.subset ho)⟩

end Sys2Proof
end

section
/-! SUPPORT. Reset in any state (70_reset_and_hazards.md section 1, R252). -/

namespace Sys2Proof

open Machine

/-- Settles O53: the step is reset applied to the state without the offer it takes (`step_of_reset`); what that leaves is said
field by field by the `hardReset_*` lemmas, and the values it writes are those of `State.reset`. -/
theorem resetAbandons : Obligations.ResetAbandons := by
  unfold Obligations.ResetAbandons
  intro s rest hp
  refine ⟨hardReset { s with prog := rest }, step_of_reset hp, ?_⟩
  simp [State.reset]

end Sys2Proof
end
